-- ==== Sys2Proof/Word.lean ====
section
/-! DEFINITION. The byte, the only unit that any space of the hardware moves (spec/20_memory.md R50, R55). -/

namespace Sys2Proof

/-- A byte, 0 to 255, bit 0 the least significant (R11). -/
abbrev Byte := BitVec 8

/-- `zeros(n)` of R11: `n` bytes 0. -/
def zeros (n : Nat) : List Byte := List.replicate n 0#8

end Sys2Proof
end

