-- ==== Sys2Proof/Config.lean ====
section
/-! DEFINITION. The configuration: the Layout of the device (spec/10_state.md R22 to R31) and the parameters of the
reference receiver (spec/45_receiver_model.md R160). Everything here is fixed before reset is released and is written
by no command (R21, R22). What a Layout means (mask, remap, well-formedness) is in Machine/Operands.lean. -/

namespace Sys2Proof

/-- CSMAX, the capacity of a control-sequence register (R9: "2"). -/
abbrev csMax : Nat := 2

/-- NMAX, the largest operand length a command packet can carry (R9, R77). -/
abbrev nMax : Nat := 65535

/-- The Layout record (R9, R22). Plain data: its constraints are `LayoutWF` (Machine/Operands.lean). -/
structure Layout where
  /-- `buffer_length`: the number of bytes of a Frame (R24). -/
  L : Nat
  /-- `row_break_index`: the wire position where row-2 addressing starts (R25). -/
  B : Nat
  /-- `bits_per_column`: the significant low bits of a frame byte (R26). -/
  K : Nat
  /-- REMAP_EN: the remap table is used (R27). -/
  remapEn : Bool
  /-- REMAP: entry `i` is the wire position of logical index `i` (R27). -/
  remap : List Nat
  /-- CS1, `ControlSequence.reset_and_row1` (R28). -/
  cs1 : List Byte
  /-- CS2, `ControlSequence.reset_and_row2` (R29). -/
  cs2 : List Byte
deriving DecidableEq, Repr

/-- RX_OVERFLOW (R166): what the receiver's cursor does past the configured width. -/
inductive Overflow
  | clamp
  | wrap
deriving DecidableEq, Repr

/-- A band, one text row of the display: band 0 is the protocol's "row 1", band 1 its "row 2" (R12, R169). -/
inductive Band
  | band0
  | band1
deriving DecidableEq, Repr

/-- The receiver's pixel grid `G[band][col]`, one column of K pixels a byte (R161). -/
structure Grid where
  band0 : List Byte
  band1 : List Byte
deriving DecidableEq, Repr

/-- The parameters of the reference receiver (R160). -/
structure RxConfig where
  /-- T: bytes above it are control bytes (R160; 127 by default, R80). -/
  threshold : Nat
  /-- WRX: the grid's width, at least 1 (R160). -/
  width : Nat
  /-- RX_OVERFLOW (R166). -/
  overflow : Overflow
  /-- G0: the grid at the receiver's reset (R160). -/
  initialGrid : Grid
deriving DecidableEq, Repr

/-- All that is configured and never changes (R21). -/
structure Params where
  layout : Layout
  rx : RxConfig
deriving DecidableEq, Repr

/-- The receiver's parameters at their defaults for a Layout (R160): T = 127, WRX = max(B, L-B), G0 all off.
RX_OVERFLOW has no default in the spec and is an argument. -/
def RxConfig.default (layout : Layout) (overflow : Overflow) : RxConfig :=
  let w := max layout.B (layout.L - layout.B)
  { threshold := 127, width := w, overflow := overflow, initialGrid := { band0 := zeros w, band1 := zeros w } }

/-- The Layout `ΛS1` of spec/95_test_vectors.md section 0: the source's scenario 1 with the reference control values.
DESIGN CHOICE (log entry 2): the spec leaves every Layout value OPEN per device; this one is only what
`State.reset` carries. -/
def Layout.s1 : Layout :=
  { L := 10, B := 5, K := 7, remapEn := false, remap := [], cs1 := [0x81#8], cs2 := [0x82#8] }

/-- The configuration `State.reset` carries: `ΛS1` with the receiver's defaults.
DESIGN CHOICE (log entry 2): the Layout and RX_OVERFLOW are OPEN in the spec. -/
def Params.s1 : Params :=
  { layout := Layout.s1, rx := RxConfig.default Layout.s1 .clamp }

end Sys2Proof
end

