-- ==== Sys2Proof/Syntax.lean ====
section
/-! DEFINITION. The instruction set: one constructor for each row of spec/opcode_table.json, in the table's order and in
its three byte sets FE-CMD, FE-RSP and FE-WIRE (spec/30_encoding.md R72 to R76, R80 to R82). -/

namespace Sys2Proof

/-- The twelve rows of the opcode table. -/
inductive Instr
  /-- PACK, format `P`: build a frame from the column bytes, in logical order (R73, R111). -/
  | pack (cols : List Byte)
  /-- PACKD, format `D`: build a frame from a top and a bottom sequence (R74, R115). -/
  | packd (top bottom : List Byte)
  /-- NEG, format `Z`: complement the frame register (R75, R126). -/
  | neg
  /-- TX, format `Z`: transmit the frame register (R75, R132). -/
  | tx
  /-- RSP_OK, response byte 0x00 (R76). -/
  | rspOk
  /-- RSP_TE_DISCONNECTED, response byte 0x01 (R76, R181). -/
  | rspTeDisconnected
  /-- RSP_TE_TIMEOUT, response byte 0x02 (R76, R181). -/
  | rspTeTimeout
  /-- RSP_TE_WRITE_REJECTED, response byte 0x03 (R76, R181). -/
  | rspTeWriteRejected
  /-- RSP_ILLEGAL_CMD, response byte 0x04 (R76, R183). -/
  | rspIllegalCmd
  /-- RSP_FB_INVALID, response byte 0x05 (R76, R182). -/
  | rspFbInvalid
  /-- PIX, wire byte `0 p6 .. p0` (R81, R165). -/
  | pix (p : BitVec 7)
  /-- CTL, wire byte `1 c6 .. c0` (R82, R162). -/
  | ctl (c : BitVec 7)
deriving DecidableEq, Repr

/-- The byte set a row belongs to (the table's "space"). -/
inductive Space
  /-- FE-CMD: bytes the host sends on the command port (R71). -/
  | cmd
  /-- FE-RSP: bytes the block emits on the response port (R76). -/
  | rsp
  /-- FE-WIRE: bytes on the transmit port, which the device consumes (R80). -/
  | wire
deriving DecidableEq, Repr

/-- The byte set of each row. -/
def Instr.space : Instr → Space
  | .pack _ => .cmd
  | .packd _ _ => .cmd
  | .neg => .cmd
  | .tx => .cmd
  | .rspOk => .rsp
  | .rspTeDisconnected => .rsp
  | .rspTeTimeout => .rsp
  | .rspTeWriteRejected => .rsp
  | .rspIllegalCmd => .rsp
  | .rspFbInvalid => .rsp
  | .pix _ => .wire
  | .ctl _ => .wire

end Sys2Proof
end

