-- ==== Sys2Proof/WellFormed.lean ====
section
/-! DEFINITION. Which terms of Instr have an encoding: operand lengths fit the 16-bit length fields
(spec/30_encoding.md R73, R74, R77). Every other operand is bounded by its type. -/

namespace Sys2Proof

/-- `0 <= n <= 65535` (R73) for each operand length. -/
def Instr.wellFormed : Instr → Bool
  | .pack cols => decide (cols.length ≤ nMax)
  | .packd top bottom => decide (top.length ≤ nMax) && decide (bottom.length ≤ nMax)
  | .neg => true
  | .tx => true
  | .rspOk => true
  | .rspTeDisconnected => true
  | .rspTeTimeout => true
  | .rspTeWriteRejected => true
  | .rspIllegalCmd => true
  | .rspFbInvalid => true
  | .pix _ => true
  | .ctl _ => true

/-- The instruction has an encoding. -/
abbrev Instr.WellFormed (i : Instr) : Prop := i.wellFormed = true

end Sys2Proof
end

