-- ==== Sys2Proof/Decode.lean ====
section
/-! DEFINITION. The decoders of the three byte sets and the encoder (spec/30_encoding.md). The command decoder is the
byte-by-byte automaton of spec/10_state.md R37; it is total on any bytes and rejects a reserved opcode by name (R78). -/

namespace Sys2Proof

/-! ### The command set FE-CMD -/

/-- The two opcode bits `o1 o0` of R72. -/
inductive Opcode
  | pack
  | packd
  | neg
  | tx
deriving DecidableEq, Repr

/-- R72: bits 7 to 2 must be 0, bits 1 to 0 are the opcode. `none` for the reserved bytes of R78. -/
def opcodeOf (b : Byte) : Option Opcode :=
  if b.extractLsb 7 2 = 0 then
    if b.extractLsb 1 0 = 0#2 then some .pack
    else if b.extractLsb 1 0 = 1#2 then some .packd
    else if b.extractLsb 1 0 = 2#2 then some .neg
    else some .tx
  else none

/-- R77 (a): a length is `lo + 256*hi`. -/
def lengthOf (lo hi : Byte) : Nat := lo.toNat + 256 * hi.toNat

/-- The command decoder's position inside the current packet, with its operand buffer (R37).
`left` counts the operand bytes still to come; the buffers are in the order of arrival. -/
inductive DecoderPos
  /-- At a packet boundary: the next byte is an opcode byte (R71). -/
  | boundary
  /-- `0x00` has been consumed: NLO is next. -/
  | packLenLo
  /-- NHI is next. -/
  | packLenHi (lo : Byte)
  /-- Column bytes of a PACK are next. -/
  | packCols (left : Nat) (buf : List Byte)
  /-- `0x01` has been consumed: TLO is next. -/
  | topLenLo
  /-- THI is next. -/
  | topLenHi (lo : Byte)
  /-- Top bytes of a PACKD are next. -/
  | topBytes (left : Nat) (buf : List Byte)
  /-- BLO is next. -/
  | bottomLenLo (top : List Byte)
  /-- BHI is next. -/
  | bottomLenHi (top : List Byte) (lo : Byte)
  /-- Bottom bytes of a PACKD are next. -/
  | bottomBytes (top : List Byte) (left : Nat) (buf : List Byte)
deriving DecidableEq, Repr

/-- What one command byte makes of the decoder. -/
inductive ByteResult
  /-- The packet goes on. -/
  | more (p : DecoderPos)
  /-- The byte completed the packet of this command. -/
  | done (i : Instr)
  /-- The byte stood at an opcode position and is reserved (R78). -/
  | illegal (b : Byte)
deriving DecidableEq, Repr

/-- One byte at an opcode position (R72, R75, R78). -/
def feedOpcode (b : Byte) : ByteResult :=
  match opcodeOf b with
  | some .pack => .more .packLenLo
  | some .packd => .more .topLenLo
  | some .neg => .done .neg
  | some .tx => .done .tx
  | none => .illegal b

/-- A PACK whose length field has just been read (R73: `n = 0` is legal and carries no column bytes). -/
def startCols (n : Nat) : ByteResult :=
  if n = 0 then .done (.pack []) else .more (.packCols n [])

/-- A PACKD whose first length field has just been read (R74). -/
def startTop (n : Nat) : ByteResult :=
  if n = 0 then .more (.bottomLenLo []) else .more (.topBytes n [])

/-- A PACKD whose second length field has just been read (R74). -/
def startBottom (top : List Byte) (n : Nat) : ByteResult :=
  if n = 0 then .done (.packd top []) else .more (.bottomBytes top n [])

/-- The decoder consumes one command byte (R71 to R75). -/
def feedByte (p : DecoderPos) (b : Byte) : ByteResult :=
  match p with
  | .boundary => feedOpcode b
  | .packLenLo => .more (.packLenHi b)
  | .packLenHi lo => startCols (lengthOf lo b)
  | .packCols left buf =>
    if left ≤ 1 then .done (.pack (buf ++ [b])) else .more (.packCols (left - 1) (buf ++ [b]))
  | .topLenLo => .more (.topLenHi b)
  | .topLenHi lo => startTop (lengthOf lo b)
  | .topBytes left buf =>
    if left ≤ 1 then .more (.bottomLenLo (buf ++ [b])) else .more (.topBytes (left - 1) (buf ++ [b]))
  | .bottomLenLo top => .more (.bottomLenHi top b)
  | .bottomLenHi top lo => startBottom top (lengthOf lo b)
  | .bottomBytes top left buf =>
    if left ≤ 1 then .done (.packd top (buf ++ [b])) else .more (.bottomBytes top (left - 1) (buf ++ [b]))

/-- What the decoder makes of a stretch of the command stream. -/
inductive Decoded
  /-- Every byte was consumed and the packet is not complete (R79). -/
  | more (p : DecoderPos)
  /-- A packet is complete; `rest` has not been consumed. -/
  | done (i : Instr) (rest : List Byte)
  /-- A reserved opcode byte was consumed; `rest` has not been (R78). -/
  | illegal (b : Byte) (rest : List Byte)
deriving DecidableEq, Repr

/-- The decoder consumes bytes until a packet is complete, a reserved opcode is met or no byte is left (R71, R79). -/
def feed (p : DecoderPos) : List Byte → Decoded
  | [] => .more p
  | b :: rest =>
    match feedByte p b with
    | .more p' => feed p' rest
    | .done i => .done i rest
    | .illegal b => .illegal b rest

/-- Decode a command stream from a packet boundary. -/
def decodeCommand (bytes : List Byte) : Decoded := feed .boundary bytes

/-! ### The response set FE-RSP and the wire set FE-WIRE -/

/-- The response byte of R76; `none` for 0x06 to 0xFF, which are never emitted. -/
def decodeResponse (b : Byte) : Option Instr :=
  if b = 0#8 then some .rspOk
  else if b = 1#8 then some .rspTeDisconnected
  else if b = 2#8 then some .rspTeTimeout
  else if b = 3#8 then some .rspTeWriteRejected
  else if b = 4#8 then some .rspIllegalCmd
  else if b = 5#8 then some .rspFbInvalid
  else none

/-- R80: bit 7 tells pixel bytes (R81) from control bytes (R82). -/
def decodeWire (b : Byte) : Instr :=
  if b.msb then .ctl (b.extractLsb' 0 7) else .pix (b.extractLsb' 0 7)

/-- Decode the first bytes of a stream of the given byte set. -/
def decodeIn (sp : Space) (bytes : List Byte) : Option Instr :=
  match sp with
  | .cmd =>
    match decodeCommand bytes with
    | .done i _ => some i
    | .more _ => none
    | .illegal _ _ => none
  | .rsp =>
    match bytes with
    | [] => none
    | b :: _ => decodeResponse b
  | .wire =>
    match bytes with
    | [] => none
    | b :: _ => some (decodeWire b)

/-! ### The encoder -/

/-- A 16-bit length, low byte first (R54, R77). -/
def encodeLength (n : Nat) : List Byte := [BitVec.ofNat 8 (n % 256), BitVec.ofNat 8 (n / 256)]

/-- The bytes of an instruction (R72 to R76, R81, R82). -/
def encode : Instr → List Byte
  | .pack cols => 0x00#8 :: (encodeLength cols.length ++ cols)
  | .packd top bottom => 0x01#8 :: (encodeLength top.length ++ top ++ encodeLength bottom.length ++ bottom)
  | .neg => [0x02#8]
  | .tx => [0x03#8]
  | .rspOk => [0x00#8]
  | .rspTeDisconnected => [0x01#8]
  | .rspTeTimeout => [0x02#8]
  | .rspTeWriteRejected => [0x03#8]
  | .rspIllegalCmd => [0x04#8]
  | .rspFbInvalid => [0x05#8]
  | .pix p => [0#1 ++ p]
  | .ctl c => [1#1 ++ c]

/-! ### Words of the opcode table -/

/-- The bytes of a table word, its first byte first. -/
def wordBytes : Nat → Nat → List Byte
  | 0, _ => []
  | k + 1, w => BitVec.ofNat 8 w :: wordBytes k (w / 256)

/-- The instruction of a table word. The table has three byte sets whose words overlap and names no set with the word,
so the word is read in the sets in the table's order, FE-CMD, FE-RSP, FE-WIRE: the first that gives it a meaning
decides (DESIGN CHOICE, log entry 18). Above `nbits` the command stream holds zeros: the length fields of a PACK or
PACKD row, at most four bytes. -/
def decodeTableWord (nbits w : Nat) : Option Instr :=
  let bytes := wordBytes (nbits / 8) w
  match decodeIn .cmd (bytes ++ zeros 4) with
  | some i => some i
  | none =>
    match decodeIn .rsp bytes with
    | some i => some i
    | none => decodeIn .wire bytes

end Sys2Proof
end

