-- ==== Sys2Proof/Machine/State.lean ====
section
/-! DEFINITION. The state of the machine: the encoder's registers and flags, its ports, the sink history and the device
(spec/10_state.md), the reasons a step can stop, and the state after reset (R41, R200). -/

namespace Sys2Proof.Machine

open Sys2Proof

/-- The three failure kinds of a Transport write (R70, R181). -/
inductive FailKind
  | disconnected
  | timeout
  | writeRejected
deriving DecidableEq, Repr

/-- The Transport's answer to one write (R134). `delivered` is how many bytes of the failed write reached the device:
the encoder does not know it and nothing constrains it (R136 (c), log entry 5). -/
inductive Answer
  | ok
  | fail (kind : FailKind) (delivered : Nat)
deriving DecidableEq, Repr

/-- The five faults of R180, in the order of their FAULTS bits. -/
inductive Cause
  | teDisconnected
  | teTimeout
  | teWriteRejected
  | illegalCmd
  | fbInvalid
deriving DecidableEq, Repr

/-- TXS, the transmit sequencer (R36, R133): idle or active, the next segment to write, and the bytes of that segment
already handed over. -/
structure Sequencer where
  active : Bool
  seg : Nat
  idx : Nat
deriving DecidableEq, Repr

/-- TXS idle, `(0, 0)` (R41). -/
def Sequencer.idle : Sequencer := { active := false, seg := 0, idx := 0 }

/-- The receiver's two states (R161). -/
inductive RxPhase
  | awaitingRowOrColumnControl
  | awaitingColumnByte
deriving DecidableEq, Repr

/-- The state of a receiver that has a meaning (R161). -/
structure Rx where
  st : RxPhase
  /-- The control bytes received since the last completed control sequence. -/
  acc : List Byte
  band : Band
  col : Nat
  grid : Grid
deriving DecidableEq, Repr

/-- The reference receiver: running, or `undefined` after an input of R164, where it has no grid and no next state of
its own (rx_undefined; log entry 14). -/
inductive Receiver
  | running (r : Rx)
  | undefined
deriving DecidableEq, Repr

/-- RX's initial state (R161, R202). -/
def Receiver.initial (p : Params) : Receiver :=
  .running { st := .awaitingRowOrColumnControl, acc := [], band := .band0, col := 0, grid := p.rx.initialGrid }

/-- The reasons for which a step has no next state: the stuck states of the spec, raised by `step` alone and by no
meaning. They are not the five faults of R180, which are next states (`raise`, Machine/Ops.lean). -/
inductive Fault
  /-- Raised by `step` when HALT = 1: command bytes are not consumed until reset (R35, R186, U22). Safe. -/
  | halted
  /-- Raised by `step` at a packet boundary when the host has sent nothing: the block waits (R70). Safe. -/
  | awaitingCommand
  /-- Raised by `step` inside a packet when the host has sent nothing more (R79, R214). Safe. -/
  | commandUnderrun
  /-- Raised by `step` inside a TX whose write the Transport has not answered (R134, R214). Safe. -/
  | transportSilent
deriving DecidableEq, Repr

/-- The reasons for which the model gives no meaning. -/
inductive Refusal
  /-- Raised by the dispatcher for an instruction without a meaning yet (none). Safe. -/
  | notModelled (mnemonic : String)
  /-- Raised by `step` and by PACK, PACKD, NEG, TX, PIX and CTL when the Layout is not well-formed: the spec gives the
  block a meaning only for well-formed Layouts (R22, U1). Safe. -/
  | illFormedLayout
  /-- Raised by PIX and CTL when the receiver's parameters are outside R160 and R161. Safe. -/
  | illFormedReceiver
deriving DecidableEq, Repr

/-- The machine. -/
structure State where
  /-- The Layout and the receiver's parameters: configuration, changed by no step (R21, R22; log entry 1). -/
  params : Params
  /-- FB, the frame register (R33). -/
  fb : List Byte
  /-- FBV, frame valid (R34). -/
  fbv : Bool
  /-- BUSY (R35). -/
  busy : Bool
  /-- HALT (R35). -/
  halt : Bool
  /-- FAULTS, the sticky fault bits (R35, R180). -/
  faults : BitVec 5
  /-- TXS, the transmit sequencer (R36). -/
  txs : Sequencer
  /-- The command decoder's position and operand buffer (R37). -/
  dec : DecoderPos
  /-- The command port: bytes the host has sent that the block has not consumed (R70 (1)). -/
  cmdIn : List Byte
  /-- The response port: the response bytes emitted so far (R70 (2), R76). -/
  rspOut : List Byte
  /-- The transmit port: the writes handed to the Transport so far (R70 (3), R131). -/
  writes : List (List Byte)
  /-- The Transport's answers still to be given, an oracle (R20, R21). -/
  answers : List Answer
  /-- H, the sink history (R38). -/
  sink : List Byte
  /-- How many bytes of H the device has consumed (R20 (4)). -/
  rxSeen : Nat
  /-- The device, modelled by the reference receiver (R39, R161). -/
  rx : Receiver
  /-- The reset input: asserted, with how many bytes of a write in progress have got out (R200, R201). -/
  resetPin : Option Nat
  /-- The device's power-up (R38, R202). -/
  powerUpPin : Bool
deriving DecidableEq, Repr

/-- The machine right after reset, for a given configuration (R41, R200): flags clear, TXS idle, the decoder at a packet
boundary, H empty (R38), the receiver initial (R202). FB is unspecified by the spec: zeros are a DESIGN CHOICE (log
entry 3). The ports hold nothing yet (DESIGN CHOICE, log entries 4, 6, 12, 13). -/
def State.resetWith (p : Params) : State :=
  { params := p
    fb := zeros p.layout.L
    fbv := false
    busy := false
    halt := false
    faults := 0#5
    txs := Sequencer.idle
    dec := .boundary
    cmdIn := []
    rspOut := []
    writes := []
    answers := []
    sink := []
    rxSeen := 0
    rx := Receiver.initial p
    resetPin := none
    powerUpPin := false }

/-- The machine right after reset, with the configuration of log entry 2. -/
def State.reset : State := State.resetWith Params.s1

end Sys2Proof.Machine
end

