-- ==== Sys2Proof/Machine/Flags.lean ====
section
/-! DEFINITION. The status flags and the fault codes (spec/10_state.md R35, spec/60_exceptions.md R180). There are no
arithmetic condition codes. -/

namespace Sys2Proof.Machine

open Sys2Proof

/-- The FAULTS bit of a fault (R180). -/
def causeBit : Cause → Nat
  | .teDisconnected => 0
  | .teTimeout => 1
  | .teWriteRejected => 2
  | .illegalCmd => 3
  | .fbInvalid => 4

/-- The response byte of a fault (R76, R180). -/
def causeCode : Cause → Byte
  | .teDisconnected => 0x01#8
  | .teTimeout => 0x02#8
  | .teWriteRejected => 0x03#8
  | .illegalCmd => 0x04#8
  | .fbInvalid => 0x05#8

/-- The response byte `OK` (R76). -/
def okCode : Byte := 0x00#8

/-- FAULTS with the bit of a fault set and every other bit kept: the bits are sticky (R35). -/
def withCause (faults : BitVec 5) (c : Cause) : BitVec 5 := faults ||| (1#5 <<< causeBit c)

/-- HALT after a fault: ILLEGAL_CMD sets it, no other fault does (R182, R183, R184). -/
def haltAfter (halt : Bool) (c : Cause) : Bool :=
  match c with
  | .illegalCmd => true
  | .teDisconnected => halt
  | .teTimeout => halt
  | .teWriteRejected => halt
  | .fbInvalid => halt

/-- The fault a failed write raises (R136 (d), R181). -/
def failCause : FailKind → Cause
  | .disconnected => .teDisconnected
  | .timeout => .teTimeout
  | .writeRejected => .teWriteRejected

end Sys2Proof.Machine
end

