-- ==== Sys2Proof/Machine/Operands.lean ====
section
/-! DEFINITION. What a Layout means (spec/10_state.md R22 to R32) and the operand forms of the commands: mask, remap, the
fitting of a sequence to a length, the Frame type and the well-formedness of the configuration. -/

namespace Sys2Proof.Machine

open Sys2Proof

/-! ### The Layout -/

/-- `mask = (1 << K) - 1` (R26). -/
def mask (layout : Layout) : Byte := BitVec.ofNat 8 (2 ^ layout.K - 1)

/-- `π`: logical index to wire position, the identity when the remap is absent (R27, R58). -/
def remapOf (layout : Layout) (i : Nat) : Nat :=
  if layout.remapEn then layout.remap.getD i 0 else i

/-- `1 <= len <= CSMAX` and every byte in the control class (R28, R29, R30 (a)). -/
def controlSequenceOk (cs : List Byte) : Bool :=
  decide (1 ≤ cs.length) && decide (cs.length ≤ csMax) && cs.all fun b => b.msb

/-- `CS1 != CS2` and neither is a proper prefix of the other (R30 (b)). -/
def controlSequencesApart (layout : Layout) : Bool :=
  !layout.cs1.isPrefixOf layout.cs2 && !layout.cs2.isPrefixOf layout.cs1

/-- The remap is absent or a permutation of `0..L-1` (R9, R27). -/
def remapOk (layout : Layout) : Bool :=
  !layout.remapEn || layout.remap.isPerm (List.range layout.L)

/-- `WF(Λ)`: every constraint of R24 to R30 (R22, R203 (1)). -/
def layoutWf (layout : Layout) : Bool :=
  decide (1 ≤ layout.L) && decide (layout.L ≤ 65535) && decide (layout.B ≤ layout.L) &&
  decide (1 ≤ layout.K) && decide (layout.K ≤ 7) && remapOk layout &&
  controlSequenceOk layout.cs1 && controlSequenceOk layout.cs2 &&
  (decide (layout.L ≤ layout.B) || controlSequencesApart layout)

/-- A well-formed Layout (R22). -/
abbrev LayoutWF (layout : Layout) : Prop := layoutWf layout = true

/-- `π` maps `{0..B-1}` onto `{0..B-1}` (R116). -/
def RegionPreserving (layout : Layout) : Prop :=
  (∀ i, i < layout.B → remapOf layout i < layout.B) ∧
  ∀ j, j < layout.B → ∃ i, i < layout.B ∧ remapOf layout i = j

/-! ### Frames and operands -/

/-- A Frame: exactly `L` bytes, every byte with no bit outside the mask (R32). -/
def isFrame (layout : Layout) (f : List Byte) : Bool :=
  decide (f.length = layout.L) && f.all fun b => b &&& ~~~mask layout == 0#8

/-- A Frame in the sense of R32. -/
abbrev IsFrame (layout : Layout) (f : List Byte) : Prop := isFrame layout f = true

/-- `fit(s, k) = s[0:k] ++ zeros(k - min(len(s), k))` (R114). -/
def fit (s : List Byte) (k : Nat) : List Byte := s.take k ++ zeros (k - min s.length k)

/-- A host holding a sequence longer than a packet can carry sends its first 65535 bytes (R77 (d)). -/
def packetOperand (cols : List Byte) : List Byte := cols.take nMax

/-! ### The receiver's parameters -/

/-- A grid of WRX columns of K-bit cells in each band (R161). -/
def gridOk (p : Params) (g : Grid) : Bool :=
  decide (g.band0.length = p.rx.width) && decide (g.band1.length = p.rx.width) &&
  (g.band0 ++ g.band1).all fun b => b &&& ~~~mask p.layout == 0#8

/-- `WRX >= 1` and `G0` is a grid (R160, R161). -/
def receiverWf (p : Params) : Bool := decide (1 ≤ p.rx.width) && gridOk p p.rx.initialGrid

/-- Receiver parameters within R160. -/
abbrev ReceiverWF (p : Params) : Prop := receiverWf p = true

end Sys2Proof.Machine
end

