-- ==== Sys2Proof/Machine/Ops.lean ====
section
/-! DEFINITION. The shared operations: the frame register, the end of a command, taking a fault, the Transport's write
primitive, reset and the device's power-up (spec/10_state.md, spec/43_transmit.md, spec/60_exceptions.md,
spec/70_reset_and_hazards.md). -/

namespace Sys2Proof.Machine

open Sys2Proof

/-! ### Where the spec gives no meaning -/

/-- The block has a meaning only for well-formed Layouts (R22). -/
def withLayout (s : State) (k : Host.Outcome State Fault Refusal) : Host.Outcome State Fault Refusal :=
  if layoutWf s.params.layout then k else .refused .illFormedLayout

/-- The receiver has a meaning only for a well-formed Layout and parameters within R160. -/
def withReceiver (s : State) (k : Host.Outcome State Fault Refusal) : Host.Outcome State Fault Refusal :=
  withLayout s (if receiverWf s.params then k else .refused .illFormedReceiver)

/-! ### The frame register -/

/-- `FB <- F; FBV <- 1`, all cells in one step (R33, R56). -/
def storeFrame (f : List Byte) (s : State) : State := { s with fb := f, fbv := true }

/-- The observation port `fb_rd(j)`: `FB[j]` and FBV for a wire position `j` (R42). -/
def fbRd (j : Nat) (s : State) : Option (Byte × Bool) := (s.fb[j]?).map fun v => (v, s.fbv)

/-! ### The end of a command -/

/-- The command is over: BUSY clear, the sequencer idle, the decoder at a packet boundary (R35, R36, R71). -/
def endCommand (s : State) : State := { s with busy := false, txs := Sequencer.idle, dec := .boundary }

/-- `respond(code)`: the one response byte that ends a command (R11, R76). -/
def respond (code : Byte) (s : State) : State :=
  endCommand { s with rspOut := s.rspOut ++ [code] }

/-- `raise <Fault>`: set the FAULTS bit, for ILLEGAL_CMD also HALT, abandon the rest of the command, emit the code as
the response byte, clear BUSY (R184). There is no handler and no return from a fault (R184, R186). -/
def raise (c : Cause) (s : State) : State :=
  respond (causeCode c) { s with faults := withCause s.faults c, halt := haltAfter s.halt c }

/-! ### The Transport -/

/-- What `Write(seg)` comes to (R134). -/
inductive WriteResult
  /-- Answered `ok`. -/
  | ok (s : State)
  /-- Answered `fail(kind)`. -/
  | fail (kind : FailKind) (s : State)
  /-- Not answered: the block waits. -/
  | waiting (s : State)
deriving DecidableEq, Repr

/-- Hand the bytes of a segment to the Transport as one write; a segment already handed over (`idx` past 0) is not
handed over again (R36, R131). -/
def handOver (seg : List Byte) (s : State) : State :=
  { s with
    writes := if s.txs.idx = 0 then s.writes ++ [seg] else s.writes
    txs := { s.txs with idx := seg.length } }

/-- `Write(seg)`: on `ok` all of `seg` is in H (R134); on `fail` a prefix of it, of the length the answer carries
(R136 (c)); with no answer the block waits (R134, R214). -/
def write (seg : List Byte) (s : State) : WriteResult :=
  let s := handOver seg s
  match s.answers with
  | [] => .waiting s
  | .ok :: later => .ok { s with answers := later, sink := s.sink ++ seg }
  | .fail kind delivered :: later =>
    .fail kind { s with answers := later, sink := s.sink ++ seg.take delivered }

/-! ### Reset and power-up -/

/-- The block's registers, flags, sequencer and decoder at their reset values (R41, R200). Nothing is written to the
Transport, and the Layout, the ports, H and the device are left alone (R201). FB is unspecified by the spec: zeros
are a DESIGN CHOICE (log entry 3). -/
def resetBlock (s : State) : State :=
  { s with
    fb := zeros s.params.layout.L
    fbv := false
    busy := false
    halt := false
    faults := 0#5
    txs := Sequencer.idle
    dec := .boundary }

/-- The device powers up: H is the bytes since its power-up (R38), the receiver is initial (R202). -/
def powerUpDevice (s : State) : State :=
  { s with sink := [], rxSeen := 0, rx := Receiver.initial s.params, powerUpPin := false }

end Sys2Proof.Machine
end

