-- ==== Sys2Proof/Machine/Negative.lean ====
section
/-! DEFINITION. Inverse video: `negative` and the command NEG (spec/42_negative.md). -/

namespace Sys2Proof.Machine

open Sys2Proof

/-- `negative(F, Λ)`: `(~F[j]) & mask` at every wire position (R125). -/
def negative (layout : Layout) (f : List Byte) : List Byte := f.map fun b => ~~~b &&& mask layout

/-- NEG (R126): FB_INVALID without a frame, else `FB <- negative(FB, Λ); respond(0x00)`. -/
def execNeg (s : State) : Host.Outcome State Fault Refusal :=
  withLayout s
    (if s.fbv then .next (respond okCode { s with fb := negative s.params.layout s.fb })
     else .next (raise .fbInvalid s))

end Sys2Proof.Machine
end

