-- ==== Sys2Proof/Machine/Pack.lean ====
section
/-! DEFINITION. The column-byte packer: `pack`, `pack_dual` and the commands PACK and PACKD (spec/41_pack.md). -/

namespace Sys2Proof.Machine

open Sys2Proof

/-- The loop of R110 from logical index `i` on: `F[π(i)] = cols[i] & mask`. The remap is applied to the destination
index (R120). -/
def storeCols (layout : Layout) (i : Nat) : List Byte → List Byte → List Byte
  | [], f => f
  | c :: cols, f => storeCols layout (i + 1) cols (f.set (remapOf layout i) (c &&& mask layout))

/-- `pack(cols, Λ)`: a fresh frame of zeros, the first `L` columns stored through the remap (R110). -/
def pack (layout : Layout) (cols : List Byte) : List Byte :=
  storeCols layout 0 (cols.take layout.L) (zeros layout.L)

/-- `pack_dual(top, bottom, Λ)`: the logical space is split at `B` (R114). -/
def packDual (layout : Layout) (top bottom : List Byte) : List Byte :=
  pack layout (fit top layout.B ++ fit bottom (layout.L - layout.B))

/-- PACK (R111): `FB <- pack(c, Λ); FBV <- 1; respond(0x00)`. -/
def execPack (cols : List Byte) (s : State) : Host.Outcome State Fault Refusal :=
  withLayout s (.next (respond okCode (storeFrame (pack s.params.layout cols) s)))

/-- PACKD (R115): `FB <- pack_dual(t, b, Λ); FBV <- 1; respond(0x00)`. -/
def execPackd (top bottom : List Byte) (s : State) : Host.Outcome State Fault Refusal :=
  withLayout s (.next (respond okCode (storeFrame (packDual s.params.layout top bottom) s)))

end Sys2Proof.Machine
end

