-- ==== Sys2Proof/Machine/Receiver.lean ====
section
/-! DEFINITION. The reference receiver RX and the wire bytes PIX and CTL, which the device consumes one by one
(spec/45_receiver_model.md). -/

namespace Sys2Proof.Machine

open Sys2Proof

/-- `a` is a proper prefix of `b` (R162 (c)). -/
def properStart (a b : List Byte) : Bool := a.isPrefixOf b && decide (a.length < b.length)

/-- The step on a control byte (R162). With `B = L` case (b) is disabled (R163). -/
def rxControl (p : Params) (r : Rx) (v : Byte) : Receiver :=
  let acc := r.acc ++ [v]
  if acc = p.layout.cs1 then
    .running { r with st := .awaitingColumnByte, acc := [], band := .band0, col := 0 }
  else if p.layout.B < p.layout.L ∧ acc = p.layout.cs2 then
    .running { r with st := .awaitingColumnByte, acc := [], band := .band1, col := 0 }
  else if properStart acc p.layout.cs1 || properStart acc p.layout.cs2 then
    .running { r with st := .awaitingRowOrColumnControl, acc := acc }
  else .undefined

/-- `G[band][col] <- v` (R165). -/
def putColumn (g : Grid) (band : Band) (col : Nat) (v : Byte) : Grid :=
  match band with
  | .band0 => { g with band0 := g.band0.set col v }
  | .band1 => { g with band1 := g.band1.set col v }

/-- The cursor column after a pixel byte (R165, R166). -/
def advance (cfg : RxConfig) (col : Nat) : Nat :=
  if col + 1 < cfg.width then col + 1
  else
    match cfg.overflow with
    | .wrap => 0
    | .clamp => cfg.width - 1

/-- The step on a pixel byte (R165); outside AwaitingColumnByte with an empty `acc` it is undefined (R164 (b), (c)). -/
def rxPixel (p : Params) (r : Rx) (v : Byte) : Receiver :=
  if r.st = .awaitingColumnByte ∧ r.acc = [] then
    .running { r with grid := putColumn r.grid r.band r.col (v &&& mask p.layout), col := advance p.rx r.col }
  else .undefined

/-- RX consumes one byte: bytes above T are control bytes (R160). After an undefined input there is no meaning (R164). -/
def rxByte (p : Params) (rx : Receiver) (v : Byte) : Receiver :=
  match rx with
  | .undefined => .undefined
  | .running r => if p.rx.threshold < v.toNat then rxControl p r v else rxPixel p r v

/-- RX consumes bytes one by one (R172). -/
def rxRun (p : Params) (rx : Receiver) (bytes : List Byte) : Receiver := bytes.foldl (rxByte p) rx

/-- `RX.write(bytes)`, RX as a Transport: the bytes are consumed one by one in order and the answer is always `ok`
(R172). -/
def rxWrite (p : Params) (rx : Receiver) (bytes : List Byte) : Receiver × Answer := (rxRun p rx bytes, .ok)

/-- A list of writes to RX as a Transport: the receiver after them and its answers (R172). -/
def rxWrites (p : Params) (rx : Receiver) : List (List Byte) → Receiver × List Answer
  | [] => (rx, [])
  | seg :: later =>
    let first := rxWrite p rx seg
    let others := rxWrites p first.1 later
    (others.1, first.2 :: others.2)

/-- PIX: the device consumes the pixel byte `0 p6 .. p0` (R81, R165). -/
def execPix (v : BitVec 7) (s : State) : Host.Outcome State Fault Refusal :=
  withReceiver s (.next { s with rx := rxByte s.params s.rx (0#1 ++ v) })

/-- CTL: the device consumes the control byte `1 c6 .. c0` (R82, R162). -/
def execCtl (v : BitVec 7) (s : State) : Host.Outcome State Fault Refusal :=
  withReceiver s (.next { s with rx := rxByte s.params s.rx (1#1 ++ v) })

/-! ### What a frame shows -/

/-- The expected grid of a Frame over an old grid: band 0 shows `F[0:B]`, band 1 shows `F[B:L]`, every other cell keeps
its value (R169). -/
def expectedGrid (layout : Layout) (f : List Byte) (old : Grid) : Grid :=
  { band0 := f.take layout.B ++ old.band0.drop layout.B
    band1 := f.drop layout.B ++ old.band1.drop (layout.L - layout.B) }

/-- `pixel(band, col, i)` of the grid (R161). -/
def pixel (g : Grid) (band : Band) (col i : Nat) : Option Bool :=
  match band with
  | .band0 => (g.band0[col]?).map fun v => v.getLsbD i
  | .band1 => (g.band1[col]?).map fun v => v.getLsbD i

/-- The pixel rows of the 2D boolean pixel grid: `2K`, and `K` when `B = L` (R169). -/
def gridRows (layout : Layout) : Nat := if layout.B = layout.L then layout.K else 2 * layout.K

/-- The pixel row `y = band * K + i` of pixel `i` of a band (R117, R169); none outside the grid. -/
def pixelRow (layout : Layout) (band : Band) (i : Nat) : Option Nat :=
  let y := match band with
    | .band0 => i
    | .band1 => layout.K + i
  if i < layout.K ∧ y < gridRows layout then some y else none

/-- The band and the bit of a pixel row, `y div K` and `y mod K` (R117); none outside the grid (R169). -/
def rowPlace (layout : Layout) (y : Nat) : Option (Band × Nat) :=
  if y < gridRows layout then some (if y / layout.K = 0 then .band0 else .band1, y % layout.K) else none

/-- The 2D boolean pixel grid: row `y`, column `col` (R169). -/
def gridPixel (layout : Layout) (g : Grid) (y col : Nat) : Option Bool :=
  (rowPlace layout y).bind fun place => pixel g place.1 col place.2

end Sys2Proof.Machine
end

