-- ==== Sys2Proof/Machine/Response.lean ====
section
/-! DEFINITION. The rows of the response set FE-RSP: each is the end of a command with its code (spec/30_encoding.md R76,
spec/60_exceptions.md R180 to R184). The commands end through the same two operations, `respond` and `raise`. -/

namespace Sys2Proof.Machine

open Sys2Proof

/-- RSP_OK: the command completed without fault (R76). -/
def execRspOk (s : State) : Host.Outcome State Fault Refusal := .next (respond okCode s)

/-- RSP_TE_DISCONNECTED: a write was answered `fail(disconnected)` (R136 (d), R181). -/
def execRspTeDisconnected (s : State) : Host.Outcome State Fault Refusal := .next (raise .teDisconnected s)

/-- RSP_TE_TIMEOUT: a write was answered `fail(timeout)` (R136 (d), R181). -/
def execRspTeTimeout (s : State) : Host.Outcome State Fault Refusal := .next (raise .teTimeout s)

/-- RSP_TE_WRITE_REJECTED: a write was answered `fail(write-rejected)` (R136 (d), R181). -/
def execRspTeWriteRejected (s : State) : Host.Outcome State Fault Refusal := .next (raise .teWriteRejected s)

/-- RSP_ILLEGAL_CMD: the byte at an opcode position is reserved; the block halts (R78, R183). -/
def execRspIllegalCmd (s : State) : Host.Outcome State Fault Refusal := .next (raise .illegalCmd s)

/-- RSP_FB_INVALID: NEG or TX with FBV = 0 (R182). -/
def execRspFbInvalid (s : State) : Host.Outcome State Fault Refusal := .next (raise .fbInvalid s)

end Sys2Proof.Machine
end

