-- ==== Sys2Proof/Machine/Transmit.lean ====
section
/-! DEFINITION. The serializer: the segments, the transmit sequencer in its small-step form (R133) and as the loop of R132,
and the command TX (spec/43_transmit.md). -/

namespace Sys2Proof.Machine

open Sys2Proof

/-- `segs(F, Λ)`: the segments in order, empty ones removed (R131). -/
def segs (layout : Layout) (f : List Byte) : List (List Byte) :=
  let row1 := [layout.cs1, f.take layout.B]
  let row2 :=
    if layout.B < layout.L then [layout.cs2, (f.drop layout.B).take (layout.L - layout.B)] else []
  (row1 ++ row2).filter fun seg => !seg.isEmpty

/-- `tx_stream(F, Λ)`: the concatenation of the segments (R130, R131). -/
def txStream (layout : Layout) (f : List Byte) : List Byte := (segs layout f).flatten

/-- The segments of the frame in FB. -/
def stateSegs (s : State) : List (List Byte) := segs s.params.layout s.fb

/-- The loop of R132 over the segments still to write: stop at the first failed write, without a retry (R136); wait
where the Transport has not answered (R134); respond `OK` after the last. -/
def sendSegs : List (List Byte) → State → State
  | [], s => respond okCode s
  | seg :: later, s =>
    match write seg s with
    | .ok t => sendSegs later { t with txs := { active := true, seg := t.txs.seg + 1, idx := 0 } }
    | .fail kind t => raise (failCause kind) t
    | .waiting t => t

/-- TX is accepted: BUSY for the whole command (R132), the sequencer at `(0, 0)` (R36). -/
def startTx (s : State) : State := { s with busy := true, txs := { active := true, seg := 0, idx := 0 } }

/-- One step of the sequencer (R133). -/
def txStep (s : State) : State :=
  if s.txs.active then
    match (stateSegs s)[s.txs.seg]? with
    | none => respond okCode s
    | some seg =>
      match write seg s with
      | .ok t => { t with txs := { active := true, seg := t.txs.seg + 1, idx := 0 } }
      | .fail kind t => raise (failCause kind) t
      | .waiting t => t
  else s

/-- A TX that was waiting goes on at its current segment (R36, R134). -/
def resumeTx (s : State) : State := sendSegs ((stateSegs s).drop s.txs.seg) s

/-- TX (R132): FB_INVALID without a frame, else every segment in order. -/
def execTx (s : State) : Host.Outcome State Fault Refusal :=
  withLayout s
    (if s.fbv then .next (sendSegs (stateSegs s) (startTx s))
     else .next (raise .fbInvalid s))

/-- The reset input is taken (R200, R201). During a TX the output stops after the bytes already handed over: of the
segment in progress a prefix of the length the pin carries has reached the device (R201, U15). -/
def takeReset (delivered : Nat) (s : State) : State :=
  let out := if s.txs.active then ((stateSegs s).getD s.txs.seg []).take delivered else []
  resetBlock { s with sink := s.sink ++ out, resetPin := none }

end Sys2Proof.Machine
end

