-- ==== Sys2Proof/Machine/Dispatch.lean ====
section
/-! DEFINITION. The dispatcher: one arm for each row of spec/opcode_table.json. -/

namespace Sys2Proof.Machine

open Sys2Proof

def exec (i : Instr) (s : State) : Host.Outcome State Fault Refusal :=
  match i with
  -- FE-CMD
  | .pack cols => Sys2Proof.Machine.execPack cols s
  | .packd top bottom => Sys2Proof.Machine.execPackd top bottom s
  | .neg => Sys2Proof.Machine.execNeg s
  | .tx => Sys2Proof.Machine.execTx s
  -- FE-RSP
  | .rspOk => Sys2Proof.Machine.execRspOk s
  | .rspTeDisconnected => Sys2Proof.Machine.execRspTeDisconnected s
  | .rspTeTimeout => Sys2Proof.Machine.execRspTeTimeout s
  | .rspTeWriteRejected => Sys2Proof.Machine.execRspTeWriteRejected s
  | .rspIllegalCmd => Sys2Proof.Machine.execRspIllegalCmd s
  | .rspFbInvalid => Sys2Proof.Machine.execRspFbInvalid s
  -- FE-WIRE
  | .pix v => Sys2Proof.Machine.execPix v s
  | .ctl v => Sys2Proof.Machine.execCtl v s

end Sys2Proof.Machine
end

