-- ==== Sys2Proof/Machine/Fetch.lean ====
section
/-! DEFINITION. Where the next instruction comes from: the command port for the encoder, the sink history for the device
(spec/10_state.md R20, R36, R37), and how a word is placed there. -/

namespace Sys2Proof.Machine

open Sys2Proof

/-- The next byte of H that the device has not consumed (R20 (4)). -/
def nextWireByte (s : State) : Option Byte := s.sink[s.rxSeen]?

/-- The device has taken that byte. -/
def wireByteTaken (s : State) : State := { s with rxSeen := s.rxSeen + 1 }

/-- The decoder reads the command port from its current position (R37, R71). -/
def fetchCommand (s : State) : Decoded := feed s.dec s.cmdIn

/-- The decoder has consumed the command port up to `rest` and stands at `pos`; BUSY from the acceptance of the opcode
byte on (R35, R37). -/
def bytesTaken (pos : DecoderPos) (rest : List Byte) (s : State) : State :=
  { s with dec := pos, cmdIn := rest, busy := true }

/-- Nothing keeps the encoder from reading the command port next: no pin asserted, the device up to date, no TX in
progress, not halted. -/
def readyForCommand (s : State) : State :=
  { s with
    resetPin := none
    powerUpPin := false
    rxSeen := s.sink.length
    txs := Sequencer.idle
    dec := .boundary
    busy := false
    halt := false }

/-- Place an instruction where the next step finds it. A command stands on the command port. A wire byte is the next
byte of H that the device has not consumed. A response byte is fetched from nowhere (R76: it ends a command), so the
command is placed whose execution is that response and nothing else: a reserved opcode byte for RSP_ILLEGAL_CMD, NEG
without a frame for RSP_FB_INVALID; `decodeTableWord` gives no other row of FE-RSP (log entry 18). -/
def placeInstr (i : Instr) (s : State) : State :=
  match i with
  | .pix v => { s with sink := s.sink ++ encode (.pix v), rxSeen := s.sink.length, resetPin := none, powerUpPin := false }
  | .ctl v => { s with sink := s.sink ++ encode (.ctl v), rxSeen := s.sink.length, resetPin := none, powerUpPin := false }
  | .rspFbInvalid => { readyForCommand s with cmdIn := encode .neg, fbv := false }
  | .pack cols => { readyForCommand s with cmdIn := encode (.pack cols) }
  | .packd top bottom => { readyForCommand s with cmdIn := encode (.packd top bottom) }
  | .neg => { readyForCommand s with cmdIn := encode .neg }
  | .tx => { readyForCommand s with cmdIn := encode .tx }
  | .rspOk => { readyForCommand s with cmdIn := encode .rspOk }
  | .rspTeDisconnected => { readyForCommand s with cmdIn := encode .rspTeDisconnected }
  | .rspTeTimeout => { readyForCommand s with cmdIn := encode .rspTeTimeout }
  | .rspTeWriteRejected => { readyForCommand s with cmdIn := encode .rspTeWriteRejected }
  | .rspIllegalCmd => { readyForCommand s with cmdIn := encode .rspIllegalCmd }

/-- Place a table word: the instruction `decodeTableWord` reads from it, or its bytes on the command port where it reads
none. -/
def placeWord (nbits w : Nat) (s : State) : State :=
  match decodeTableWord nbits w with
  | some i => placeInstr i s
  | none => { readyForCommand s with cmdIn := wordBytes (nbits / 8) w }

end Sys2Proof.Machine
end

