-- ==== Sys2Proof/Machine/Agents.lean ====
section
/-! DEFINITION. Which agent acts next. At any time exactly one agent is active (spec/10_state.md R20): a pin asserted from
outside is taken first, then the device consumes what has reached it, then the encoder goes on (log entries 7, 8). -/

namespace Sys2Proof.Machine

open Sys2Proof

/-- The encoder reads the command port (R37, R61, R71): an incomplete packet is kept in the decoder (R79), a complete
one is executed, a reserved opcode ends as ILLEGAL_CMD (R78). -/
def stepCommand (s : State) : Host.Outcome State Fault Refusal :=
  match fetchCommand s with
  | .more pos => .next (bytesTaken pos [] s)
  | .done i rest => exec i (bytesTaken .boundary rest s)
  | .illegal _ rest => exec .rspIllegalCmd (bytesTaken .boundary rest s)

/-- The encoder: halted it does nothing (R35); a TX in progress goes on (R133); else the next command is read. Where it
waits for the Transport or for the host it is stuck (R79, R134, R214). -/
def stepEncoder (s : State) : Host.Outcome State Fault Refusal :=
  if s.halt then .fault .halted
  else if s.txs.active then
    if s.answers = [] then .fault .transportSilent else .next (resumeTx s)
  else if s.cmdIn = [] then
    if s.dec = .boundary then .fault .awaitingCommand else .fault .commandUnderrun
  else stepCommand s

/-- The device consumes the next byte of H (R20 (4)), or the encoder steps. -/
def stepAgents (s : State) : Host.Outcome State Fault Refusal :=
  match nextWireByte s with
  | some b => exec (decodeWire b) (wireByteTaken s)
  | none => stepEncoder s

/-- A pin asserted from outside, or an agent of the machine. -/
def stepMachine (s : State) : Host.Outcome State Fault Refusal :=
  if s.powerUpPin then .next (powerUpDevice s)
  else
    match s.resetPin with
    | some delivered => .next (takeReset delivered s)
    | none => stepAgents s

end Sys2Proof.Machine
end

