-- ==== Sys2Proof/Machine/Step.lean ====
section
/-! DEFINITION. One step of the machine, and where a word of the opcode table is placed for it. -/

namespace Sys2Proof.Machine

open Sys2Proof

/-- One step. For a Layout that is not well-formed the block has no meaning (R22). -/
def step (s : State) : Host.Outcome State Fault Refusal :=
  withLayout s (stepMachine s)

/-- The state with a table word placed where the next step fetches it (log entry 18). -/
def State.withFetchWord (s : State) (nbits w : Nat) : State := placeWord nbits w s

end Sys2Proof.Machine
end

