-- ==== Sys2Proof/Machine/Glyph.lean ====
section
/-! DEFINITION. The GlyphTable collaborator: `lookup` and `encode_string`, evaluated by the host (spec/40_glyphtable.md).
Static data outside the block (R21, R40): an argument, no state. -/

namespace Sys2Proof.Machine

open Sys2Proof

/-- A GlyphTable: the mapping, with its designated fallback and space entries (R100). -/
structure GlyphTable where
  glyphs : List (Char × List Byte)
  space : List Byte
  fallback : List Byte
deriving DecidableEq, Repr

/-- The space glyph's bytes are all zero and every glyph byte of a single-height table is at most 0x7F (R100). -/
def glyphTableWf (table : GlyphTable) : Bool :=
  (table.space.all fun b => b == 0#8) && (table.fallback.all fun b => !b.msb) &&
  table.glyphs.all fun g => g.2.all fun b => !b.msb

/-- `lookup(ch)`: the table's entry, the space glyph for the space character, else the fallback (R101). -/
def lookup (table : GlyphTable) (ch : Char) : List Byte :=
  if ch = ' ' then table.space else (table.glyphs.lookup ch).getD table.fallback

/-- `rep(s, r)` (R11). -/
def rep (s : List Byte) (r : Nat) : List Byte := (List.replicate r s).flatten

/-- `encode_string(s, delimiter, r)`: the glyphs with the delimiter `r` times between characters, none after the last
(R102). -/
def encodeString (table : GlyphTable) (delimiter : List Byte) (r : Nat) : List Char → List Byte
  | [] => []
  | [c] => lookup table c
  | c :: c' :: later => lookup table c ++ rep delimiter r ++ encodeString table delimiter r (c' :: later)

/-! ### Double height -/

/-- A double-height font: two GlyphTables, one for the top band and one for the bottom band; no glyph has 14-bit columns
(R105). -/
structure DoubleFont where
  top : GlyphTable
  bottom : GlyphTable
deriving DecidableEq, Repr

/-- The two independent column-byte sequences of a double-height text, `top` and `bottom` (R105, R106): each is
`encode_string` of the text with the band's own table and delimiter. -/
def encodeDouble (font : DoubleFont) (topDelimiter bottomDelimiter : List Byte) (r : Nat) (text : List Char) :
    List Byte × List Byte :=
  (encodeString font.top topDelimiter r text, encodeString font.bottom bottomDelimiter r text)

end Sys2Proof.Machine
end

