-- ==== Sys2Proof/Machine/Caller.lean ====
section
/-! DEFINITION. The caller-side procedures, run by the host: windowing, centering, scrolling, and the pseudo-instructions
CLEAR, SHOW, FLASH, CENTER, SCROLL (spec/44_caller_procedures.md, spec/30_encoding.md R86). They add no state to the
block. -/

namespace Sys2Proof.Machine

open Sys2Proof

/-! ### The display width -/

/-- `1 <= W <= L` (R146). -/
def widthOk (layout : Layout) (width : Nat) : Bool := decide (1 ≤ width) && decide (width ≤ layout.L)

/-- The default display width W: `L` for a single-band Layout, `B` when text is placed in the row-1 region of a two-band
Layout (R146). DESIGN CHOICE (log entry 31): a Layout with `B = 0` has no row-1 region, the spec names no default for it,
and the model gives none; the caller has to name W. -/
def defaultWidth (layout : Layout) : Option Nat :=
  if layout.B = layout.L then some layout.L else if layout.B = 0 then none else some layout.B

/-- The width of a CENTER or SCROLL: the caller's, or the default where the caller names none (R146). DESIGN CHOICE (log
entry 32): the spec gives only the range `1 <= W <= L`; the model gives no width, and so no expansion, outside it. -/
def displayWidth (layout : Layout) (asked : Option Nat) : Option Nat :=
  (asked.or (defaultWidth layout)).filter (widthOk layout)

/-! ### Windowing, centering, scrolling -/

/-- A window of a sequence, `s[o : o+L]` (R145). -/
def window (s : List Byte) (o len : Nat) : List Byte := (s.drop o).take len

/-- Blank columns before a centred text: `(W - w) div 2`, and 0 for a text wider than W (R147). -/
def centerPadding (width textWidth : Nat) : Nat := (width - textWidth) / 2

/-- Blank columns after a centred text: the extra column goes after (R147). -/
def centerAfter (width textWidth : Nat) : Nat := width - textWidth - centerPadding width textWidth

/-- The centred sequence, `zeros(padding) ++ text` (R147). -/
def center (width : Nat) (text : List Byte) : List Byte := zeros (centerPadding width text.length) ++ text

/-- `padded = zeros(W) ++ text ++ zeros(W)` (R149). -/
def scrollPadded (width : Nat) (text : List Byte) : List Byte := zeros width ++ text ++ zeros width

/-- The windows of a scroll, offsets `0, 1, ..., P - L` ascending; none when `P < L` (R149, R150). -/
def scrollWindows (layout : Layout) (width : Nat) (text : List Byte) : List (List Byte) :=
  (List.range ((scrollPadded width text).length + 1 - layout.L)).map fun o =>
    window (scrollPadded width text) o layout.L

/-! ### The host's instructions -/

/-- PACK of a sequence of any length, as a host sends it (R77 (d), R106). -/
def hostPack (cols : List Byte) : Instr := .pack (packetOperand cols)

/-- PACKD of two sequences of any lengths, as a host sends it (R77 (d), R106). -/
def hostPackd (top bottom : List Byte) : Instr := .packd (packetOperand top) (packetOperand bottom)

/-- Double-height text: its two sequences are the operands of a PACKD (R106). -/
def hostPackDouble (font : DoubleFont) (topDelimiter bottomDelimiter : List Byte) (r : Nat) (text : List Char) : Instr :=
  hostPackd (encodeDouble font topDelimiter bottomDelimiter r text).1
    (encodeDouble font topDelimiter bottomDelimiter r text).2

/-- The host's fonts: a single-height table and a double-height font (R100, R105). -/
structure Fonts where
  single : GlyphTable
  double : DoubleFont
deriving DecidableEq, Repr

/-- What stands in operand position: column bytes, or a string literal (R85, R86). -/
inductive Operand
  | bytes (cols : List Byte)
  | text (literal : List Char)
deriving DecidableEq, Repr

/-- A string literal in operand position stands for `encode_string` of it with the single-space delimiter repeated once
(R86); the delimiter is the table's space glyph (log entry 25). -/
def operandBytes (table : GlyphTable) : Operand → List Byte
  | .bytes cols => cols
  | .text literal => encodeString table (lookup table ' ') 1 literal

/-- What the host writes: the commands PACK and PACKD with their operands (R85) and the pseudo-instructions of R86. A
width of `none` is the default width. -/
inductive Pseudo
  /-- CLEAR: the blank frame. -/
  | clear
  /-- PACK of bytes or of a string literal. -/
  | pack (cols : Operand)
  /-- PACKD of bytes or string literals. -/
  | packd (top bottom : Operand)
  /-- SHOW. -/
  | showText (text : List Char) (delimiter : List Byte) (repeats : Nat)
  /-- FLASH. -/
  | flash
  /-- CENTER. -/
  | center (width : Option Nat) (cols : Operand)
  /-- SCROLL. -/
  | scroll (width : Option Nat) (cols : Operand)
deriving DecidableEq, Repr

/-- The commands of a pseudo-instruction (R86, R149, R151, R153); none for a CENTER or SCROLL without a width (log entries
31, 32). In a PACKD a literal is encoded with the table of its band, elsewhere with the single-height table (DEDUCED, log
entry 33). -/
def expand (fonts : Fonts) (layout : Layout) : Pseudo → Option (List Instr)
  | .clear => some [.pack []]
  | .pack cols => some [hostPack (operandBytes fonts.single cols)]
  | .packd top bottom =>
    some [hostPackd (operandBytes fonts.double.top top) (operandBytes fonts.double.bottom bottom)]
  | .showText text delimiter repeats => some [hostPack (encodeString fonts.single delimiter repeats text), .tx]
  | .flash => some [.neg, .tx]
  | .center width cols =>
    (displayWidth layout width).map fun w => [hostPack (Machine.center w (operandBytes fonts.single cols))]
  | .scroll width cols =>
    (displayWidth layout width).map fun w =>
      (scrollWindows layout w (operandBytes fonts.single cols)).flatMap fun window => [hostPack window, .tx]

/-! ### The host's loop -/

/-- The block takes the host's next command: it is not halted, no TX is in progress and no packet is half sent (R35,
R61, R71). -/
def acceptsCommand (s : State) : Bool := !s.halt && !s.txs.active && decide (s.dec = .boundary)

/-- The host issues commands one after another and stops on any non-zero response (R149, R152). A command is issued only
to a block that takes one: a TX that has started runs to its end or to a failure first (R152), and a halted block takes
none until reset (R35). Until then the host waits (log entry 27). -/
def hostRun : List Instr → State → Host.Outcome State Fault Refusal
  | [], s => .next s
  | i :: later, s =>
    if acceptsCommand s then
      match exec i s with
      | .next t => if t.busy = false ∧ t.rspOut.getLast? = some okCode then hostRun later t else .next t
      | .fault r => .fault r
      | .refused r => .refused r
    else .next s

end Sys2Proof.Machine
end

