-- ==== Sys2Proof/Safety.lean ====
section
/-! DEFINITION. What a good state and a good run are, in the terms the statements use. -/

namespace Sys2Proof.Machine

open Sys2Proof

/-- No fault recorded since reset: the no-fault premise of R35. -/
def NoFaultRecorded (s : State) : Prop := s.faults = 0#5

/-- R43, with the width of the register file (R33): FB has `L` cells, and whenever FBV = 1 it is a Frame. -/
def FrameInv (s : State) : Prop :=
  s.fb.length = s.params.layout.L ∧ (s.fbv = true → IsFrame s.params.layout s.fb)

/-- The encoder's control state (R35, R36, R37): BUSY exactly while a packet is arriving or a TX executes; an idle
sequencer is `(0, 0)`; an active one belongs to a TX over a valid frame that waits for the answer to a segment it
has handed over; HALT is the record of ILLEGAL_CMD and no command is then in progress. -/
structure ControlInv (s : State) : Prop where
  busy_iff : s.busy = true ↔ s.txs.active = true ∨ s.dec ≠ .boundary
  idle_zero : s.txs.active = false → s.txs = Sequencer.idle
  active_valid : s.txs.active = true → s.fbv = true ∧ s.dec = .boundary
  active_place : s.txs.active = true →
    ∃ seg, (stateSegs s)[s.txs.seg]? = some seg ∧ s.txs.idx = seg.length
  halt_iff : s.halt = true ↔ s.faults.getLsbD 3 = true
  halt_idle : s.halt = true → s.busy = false

/-- A byte the encoder may send: a pixel byte within the mask, or a byte of a configured control sequence
(R81, R82, R83). -/
def WireByte (layout : Layout) (b : Byte) : Prop :=
  b &&& ~~~mask layout = 0#8 ∨ b ∈ layout.cs1 ∨ b ∈ layout.cs2

/-- Every byte of H is one the encoder may send. -/
def SinkInv (s : State) : Prop := ∀ b ∈ s.sink, WireByte s.params.layout b

/-- The device's state is a function of the history it has consumed (R39). -/
def DeviceInv (s : State) : Prop :=
  s.rxSeen ≤ s.sink.length ∧ s.rx = rxRun s.params (Receiver.initial s.params) (s.sink.take s.rxSeen)

/-- Every response byte emitted is one of R76. -/
def ResponseInv (s : State) : Prop := ∀ b ∈ s.rspOut, b.toNat ≤ 5

/-- Every write handed to the Transport is non-empty (R70 (3), R131). -/
def WritesInv (s : State) : Prop := ∀ w ∈ s.writes, w ≠ []

/-- The encoder is ready to read a command: nothing is asserted, the device is up to date, no TX is in progress and the
block is not halted. -/
structure EncoderReady (s : State) : Prop where
  layout_wf : LayoutWF s.params.layout
  no_power_up : s.powerUpPin = false
  no_reset : s.resetPin = none
  device_done : nextWireByte s = none
  not_halted : s.halt = false
  no_tx : s.txs.active = false

/-- The block has no next step (R79, R134, R214, R35): halted, waiting for the Transport, or waiting for the host. -/
def EncoderStuck (s : State) : Prop :=
  s.halt = true ∨ (s.txs.active = true ∧ s.answers = []) ∨ (s.txs.active = false ∧ s.cmdIn = [])

end Sys2Proof.Machine
end

