-- ==== Sys2Proof/Certificates/Slice0/Obligations.lean ====
section
/-! DEFINITION. The statements about the machine, for the provers. Each docstring names the rule of spec/ it rests on. -/

open Sys2Proof Sys2Proof.Machine

/-! ### Encodings -/

/-- R71 to R75: a well-formed command decodes from its own bytes, whatever follows on the command port, and the bytes
that follow are left for the next packet. -/
def Obligations.CommandEncodingRoundTrip : Prop :=
  ∀ i : Instr, i.WellFormed → i.space = .cmd → ∀ rest : List Byte,
    decodeCommand (encode i ++ rest) = .done i rest

/-- R76, R80 to R82: response and wire bytes decode from their own encodings, every wire byte is the encoding of what
it decodes to, and a byte that decodes as a response is that response's code. -/
def Obligations.ResponseAndWireRoundTrip : Prop :=
  (∀ (i : Instr) (rest : List Byte), i.space ≠ .cmd → decodeIn i.space (encode i ++ rest) = some i) ∧
  (∀ b : Byte, encode (decodeWire b) = [b]) ∧
  ∀ (b : Byte) (i : Instr), decodeResponse b = some i → encode i = [b]

/-- R37, R71: how the command bytes are cut into arrivals does not matter to the decoder. -/
def Obligations.DecoderIgnoresArrivalCuts : Prop :=
  ∀ (pos : DecoderPos) (xs ys : List Byte),
    (∀ pos', feed pos xs = .more pos' → feed pos (xs ++ ys) = feed pos' ys) ∧
    (∀ i rest, feed pos xs = .done i rest → feed pos (xs ++ ys) = .done i (rest ++ ys)) ∧
    ∀ b rest, feed pos xs = .illegal b rest → feed pos (xs ++ ys) = .illegal b (rest ++ ys)

/-- R72 to R75, R81, R82: words written out from the spec's encodings decode to the instructions they stand for. -/
def Obligations.WrittenOutWordsDecode : Prop :=
  decodeCommand [0x00#8, 0x01#8, 0x00#8, 0x7F#8] = .done (.pack [0x7F#8]) [] ∧
  decodeCommand [0x00#8, 0x00#8, 0x00#8] = .done (.pack []) [] ∧
  decodeCommand [0x01#8, 0x02#8, 0x00#8, 0x11#8, 0x22#8, 0x01#8, 0x00#8, 0x33#8] =
    .done (.packd [0x11#8, 0x22#8] [0x33#8]) [] ∧
  decodeCommand [0x02#8] = .done .neg [] ∧ decodeCommand [0x03#8] = .done .tx [] ∧
  decodeCommand [0x83#8] = .illegal 0x83#8 [] ∧
  decodeWire 0x55#8 = .pix 0b1010101#7 ∧ decodeWire 0x83#8 = .ctl 0b0000011#7 ∧
  decodeResponse 0x05#8 = some .rspFbInvalid

/-- R72, R78: exactly the bytes 0x00 to 0x03 are opcodes; any other byte at an opcode position is rejected and nothing
after it is consumed. -/
def Obligations.ReservedOpcodesRejected : Prop :=
  opcodeOf 0x00#8 = some .pack ∧ opcodeOf 0x01#8 = some .packd ∧ opcodeOf 0x02#8 = some .neg ∧
  opcodeOf 0x03#8 = some .tx ∧
  ∀ (b : Byte) (rest : List Byte), 4 ≤ b.toNat → decodeCommand (b :: rest) = .illegal b rest

/-- R79, R112: no proper initial part of a command's packet completes a command or is rejected. -/
def Obligations.IncompletePacketNeverCompletes : Prop :=
  ∀ i : Instr, i.WellFormed → i.space = .cmd → ∀ xs ys : List Byte, encode i = xs ++ ys → ys ≠ [] →
    ∃ pos, decodeCommand xs = .more pos

/-- R54, R73 to R75, R77 (a): packet lengths, and the length field is the number's low byte and then its high byte. -/
def Obligations.PacketLayout : Prop :=
  (∀ cols, (encode (.pack cols)).length = 3 + cols.length) ∧
  (∀ top bottom, (encode (.packd top bottom)).length = 5 + top.length + bottom.length) ∧
  (encode .neg).length = 1 ∧ (encode .tx).length = 1 ∧
  (∀ lo hi, encodeLength (lengthOf lo hi) = [lo, hi]) ∧
  ∀ n, n ≤ 65535 → ∃ lo hi, encodeLength n = [lo, hi] ∧ lo.toNat + 256 * hi.toNat = n

/-! ### The packer -/

/-- R27, R58, R59 (a): for a well-formed Layout `π` is a bijection on `0..L-1`. -/
def Obligations.RemapIsBijection : Prop :=
  ∀ layout : Layout, LayoutWF layout →
    (∀ i, i < layout.L → remapOf layout i < layout.L) ∧
    (∀ i j, i < layout.L → j < layout.L → remapOf layout i = remapOf layout j → i = j) ∧
    (∀ j, j < layout.L → ∃ i, i < layout.L ∧ remapOf layout i = j) ∧
    ((List.range layout.L).map (remapOf layout)).Perm (List.range layout.L)

/-- R110: the cells of `pack(cols, Λ)`. -/
def Obligations.PackCells : Prop :=
  ∀ layout : Layout, LayoutWF layout → ∀ cols : List Byte,
    (pack layout cols).length = layout.L ∧
    (∀ i c, i < min cols.length layout.L → cols[i]? = some c →
      (pack layout cols)[remapOf layout i]? = some (c &&& mask layout)) ∧
    ∀ i, min cols.length layout.L ≤ i → i < layout.L → (pack layout cols)[remapOf layout i]? = some 0#8

/-- R113: the properties (a) to (f) of `pack`. -/
def Obligations.PackProperties : Prop :=
  ∀ layout : Layout, LayoutWF layout → ∀ cols : List Byte,
    (pack layout cols).length = layout.L ∧
    (∀ b ∈ pack layout cols, b.toNat ≤ (mask layout).toNat ∧ b.msb = false) ∧
    (cols.length < layout.L → ∀ i, cols.length ≤ i → i < layout.L →
      (pack layout cols)[remapOf layout i]? = some 0#8) ∧
    pack layout cols = pack layout (cols.take layout.L) ∧
    (∀ k, pack layout cols = pack layout (cols ++ zeros k)) ∧
    pack layout cols = pack layout (cols.map fun c => c &&& mask layout) ∧
    (layout.remapEn = false →
      pack layout cols =
        ((cols.take layout.L).map fun c => c &&& mask layout) ++ zeros (layout.L - min cols.length layout.L))

/-- R114: the cells of `pack_dual(top, bottom, Λ)`. -/
def Obligations.PackDualCells : Prop :=
  ∀ layout : Layout, LayoutWF layout → ∀ top bottom : List Byte,
    packDual layout top bottom = pack layout (fit top layout.B ++ fit bottom (layout.L - layout.B)) ∧
    (packDual layout top bottom).length = layout.L ∧
    (∀ i c, i < min top.length layout.B → top[i]? = some c →
      (packDual layout top bottom)[remapOf layout i]? = some (c &&& mask layout)) ∧
    (∀ i, min top.length layout.B ≤ i → i < layout.B →
      (packDual layout top bottom)[remapOf layout i]? = some 0#8) ∧
    (∀ j c, j < min bottom.length (layout.L - layout.B) → bottom[j]? = some c →
      (packDual layout top bottom)[remapOf layout (layout.B + j)]? = some (c &&& mask layout)) ∧
    ∀ j, min bottom.length (layout.L - layout.B) ≤ j → j < layout.L - layout.B →
      (packDual layout top bottom)[remapOf layout (layout.B + j)]? = some 0#8

/-- R115 (a), (b), (d), (e): a long operand never spills into the other part; with one part empty its operand is
ignored. -/
def Obligations.PackDualParts : Prop :=
  ∀ layout : Layout, LayoutWF layout → ∀ top bottom : List Byte,
    packDual layout top bottom = packDual layout (top.take layout.B) bottom ∧
    packDual layout top bottom = packDual layout top (bottom.take (layout.L - layout.B)) ∧
    (layout.B = layout.L → packDual layout top bottom = pack layout top) ∧
    (layout.B = 0 → packDual layout top bottom = pack layout bottom)

/-- R116: for a region-preserving Layout the row-1 region of the frame depends on `top` alone and the row-2 region on
`bottom` alone, and `π` keeps each part in its region; a Layout without a remap is region-preserving. -/
def Obligations.RegionPreservingDual : Prop :=
  (∀ layout : Layout, LayoutWF layout → RegionPreserving layout →
    (∀ i, i < layout.B → remapOf layout i < layout.B) ∧
    (∀ i, layout.B ≤ i → i < layout.L → layout.B ≤ remapOf layout i ∧ remapOf layout i < layout.L) ∧
    (∀ top bottom bottom',
      (packDual layout top bottom).take layout.B = (packDual layout top bottom').take layout.B) ∧
    ∀ top top' bottom,
      (packDual layout top bottom).drop layout.B = (packDual layout top' bottom).drop layout.B) ∧
  ∀ layout : Layout, layout.remapEn = false → RegionPreserving layout

/-- R111, R115: PACK and PACKD answer a next state for every operand: the frame register holds the packed frame, FBV is
set, the response 0x00 ends the command, and nothing else changes. That the sequencer and the
decoder are idle after the command is the model's reading (log entry 30). -/
def Obligations.PackCommands : Prop :=
  (∀ (cols : List Byte) (s : State), LayoutWF s.params.layout →
    exec (.pack cols) s = .next { s with
      fb := pack s.params.layout cols, fbv := true, busy := false, txs := Sequencer.idle, dec := .boundary,
      rspOut := s.rspOut ++ [0x00#8] }) ∧
  ∀ (top bottom : List Byte) (s : State), LayoutWF s.params.layout →
    exec (.packd top bottom) s = .next { s with
      fb := packDual s.params.layout top bottom, fbv := true, busy := false, txs := Sequencer.idle, dec := .boundary,
      rspOut := s.rspOut ++ [0x00#8] }

/-! ### Inverse video -/

/-- R125: every pixel bit is inverted, every other bit of the result is 0, and the result is a Frame whatever the
operand was. -/
def Obligations.NegativeCells : Prop :=
  ∀ layout : Layout, LayoutWF layout → ∀ f : List Byte, f.length = layout.L →
    IsFrame layout (negative layout f) ∧
    ∀ (j : Nat) (b : Byte), f[j]? = some b →
      (negative layout f)[j]? = some (~~~b &&& mask layout) ∧
      (∀ i, i < layout.K → (~~~b &&& mask layout).getLsbD i = !b.getLsbD i) ∧
      ∀ i, layout.K ≤ i → (~~~b &&& mask layout).getLsbD i = false

/-- R118, R128: masking is the remainder modulo `2^K`, and the complement under the mask is the subtraction from it. -/
def Obligations.MaskArithmetic : Prop :=
  ∀ layout : Layout, LayoutWF layout → ∀ b : Byte,
    (b &&& mask layout).toNat = b.toNat % 2 ^ layout.K ∧
    (b.toNat ≤ (mask layout).toNat → (~~~b &&& mask layout).toNat = (mask layout).toNat - b.toNat)

/-- R127: `negative` is an involution on Frames, and the double complement of any sequence is its masking; two
consecutive NEG restore the frame register. -/
def Obligations.NegativeInvolution : Prop :=
  (∀ (layout : Layout) (f : List Byte), IsFrame layout f → negative layout (negative layout f) = f) ∧
  (∀ (layout : Layout) (f : List Byte), negative layout (negative layout f) = f.map fun b => b &&& mask layout) ∧
  ∀ s : State, LayoutWF s.params.layout → s.fbv = true → IsFrame s.params.layout s.fb →
    ∃ t u, exec .neg s = .next t ∧ exec .neg t = .next u ∧ u.fb = s.fb ∧ u.fbv = true

/-- R126: NEG with a valid frame answers a next state: the frame register is complemented, the response 0x00 ends the
command, and nothing else changes. That the sequencer and the
decoder are idle after the command is the model's reading (log entry 30). -/
def Obligations.NegCommand : Prop :=
  ∀ s : State, LayoutWF s.params.layout → s.fbv = true →
    exec .neg s = .next { s with
      fb := s.fb.map fun b => ~~~b &&& mask s.params.layout, busy := false, txs := Sequencer.idle, dec := .boundary,
      rspOut := s.rspOut ++ [0x00#8] }

/-- R182: NEG and TX without a frame do nothing but raise FB_INVALID. That the sequencer and the
decoder are idle after the command is the model's reading (log entry 30). -/
def Obligations.FbInvalidRaised : Prop :=
  ∀ (i : Instr) (s : State), i = .neg ∨ i = .tx → LayoutWF s.params.layout → s.fbv = false →
    exec i s = .next { s with
      faults := s.faults ||| 0b10000#5, busy := false, txs := Sequencer.idle, dec := .boundary,
      rspOut := s.rspOut ++ [0x05#8] }

/-! ### The serializer -/

/-- R130, R131: the segments for `0 < B < L`, `B = L` and `B = 0`, none of them empty, and their concatenation. -/
def Obligations.SegmentList : Prop :=
  ∀ layout : Layout, LayoutWF layout → ∀ f : List Byte, f.length = layout.L →
    (0 < layout.B → layout.B < layout.L →
      segs layout f = [layout.cs1, f.take layout.B, layout.cs2, f.drop layout.B]) ∧
    (layout.B = layout.L → segs layout f = [layout.cs1, f]) ∧
    (layout.B = 0 → segs layout f = [layout.cs1, layout.cs2, f]) ∧
    (∀ seg ∈ segs layout f, seg ≠ []) ∧
    txStream layout f =
      layout.cs1 ++ f.take layout.B ++ (if layout.B < layout.L then layout.cs2 ++ f.drop layout.B else [])

/-- R137: length, byte classes and invertibility of the stream of a Frame. -/
def Obligations.StreamProperties : Prop :=
  ∀ layout : Layout, LayoutWF layout → ∀ f : List Byte, IsFrame layout f →
    (txStream layout f).length =
      layout.cs1.length + layout.L + (if layout.B < layout.L then layout.cs2.length else 0) ∧
    (∀ (k : Nat) (b : Byte), (txStream layout f)[k]? = some b →
      (b.msb = true ↔ k < layout.cs1.length ∨
        (layout.B < layout.L ∧ layout.cs1.length + layout.B ≤ k ∧
          k < layout.cs1.length + layout.B + layout.cs2.length)) ∧
      (b.msb = false → b.toNat ≤ (mask layout).toNat)) ∧
    (txStream layout f).filter (fun b => !b.msb) = f ∧
    ∀ cols, f = pack layout cols → ∀ i c, i < layout.L → cols[i]? = some c →
      f[remapOf layout i]? = some (c &&& mask layout)

/-- R130 to R132, R134: TX with a valid frame and every write answered `ok` answers a next state: one write per segment
in order, H grows by exactly the stream, the response 0x00 ends the command, and nothing else changes. That the sequencer and the
decoder are idle after the command is the model's reading (log entry 30). -/
def Obligations.TransmitCompletes : Prop :=
  ∀ (s : State) (later : List Answer), LayoutWF s.params.layout → s.fbv = true →
    s.answers = List.replicate (stateSegs s).length .ok ++ later →
    exec .tx s = .next { s with
      sink := s.sink ++ txStream s.params.layout s.fb, writes := s.writes ++ segs s.params.layout s.fb,
      answers := later, busy := false, txs := Sequencer.idle, dec := .boundary, rspOut := s.rspOut ++ [0x00#8] }

/-- R136: the write of segment `j` fails: the earlier segments are in H, of the failing one some prefix, nothing later is
written, the kind's FAULTS bit is set and its code is the response; FB, FBV and HALT and all else are unchanged. That the sequencer and the
decoder are idle after the command is the model's reading (log entry 30). -/
def Obligations.TransmitFailure : Prop :=
  ∀ (s : State) (j delivered : Nat) (seg : List Byte) (later : List Answer) (kind : FailKind) (bit : BitVec 5)
    (code : Byte),
    (kind, bit, code) ∈ [(FailKind.disconnected, 0b00001#5, 0x01#8), (FailKind.timeout, 0b00010#5, 0x02#8),
      (FailKind.writeRejected, 0b00100#5, 0x03#8)] →
    LayoutWF s.params.layout → s.fbv = true → (segs s.params.layout s.fb)[j]? = some seg →
    s.answers = List.replicate j .ok ++ .fail kind delivered :: later →
    exec .tx s = .next { s with
      sink := s.sink ++ ((segs s.params.layout s.fb).take j).flatten ++ seg.take delivered,
      writes := s.writes ++ (segs s.params.layout s.fb).take (j + 1),
      answers := later, faults := s.faults ||| bit, busy := false, txs := Sequencer.idle, dec := .boundary,
      rspOut := s.rspOut ++ [code] }

/-- R134, R214: where the Transport has not answered the write of segment `j`, TX waits in that segment with BUSY = 1 and
no response.
That the sequencer then counts all bytes of the segment as handed over is the model's reading (log entry 10). -/
def Obligations.TransmitWaits : Prop :=
  ∀ (s : State) (j : Nat) (seg : List Byte), LayoutWF s.params.layout → s.fbv = true →
    (segs s.params.layout s.fb)[j]? = some seg → s.answers = List.replicate j .ok →
    exec .tx s = .next { s with
      sink := s.sink ++ ((segs s.params.layout s.fb).take j).flatten,
      writes := s.writes ++ (segs s.params.layout s.fb).take (j + 1),
      answers := [], busy := true, txs := { active := true, seg := j, idx := seg.length } }

/-- R133: what one step of the sequencer does, and the loop of R132 is the iteration of that step: one step for each
segment and one to respond. That the sequencer and the
decoder are idle after the command is the model's reading (log entry 30). -/
def Obligations.SequencerStepsAgreeWithLoop : Prop :=
  (∀ s : State, s.txs.active = true → (stateSegs s)[s.txs.seg]? = none →
    txStep s = { s with
      busy := false, txs := Sequencer.idle, dec := .boundary, rspOut := s.rspOut ++ [0x00#8] }) ∧
  (∀ (s : State) (seg : List Byte) (later : List Answer), s.txs.active = true → s.txs.idx = 0 →
    (stateSegs s)[s.txs.seg]? = some seg → s.answers = .ok :: later →
    txStep s = { s with
      sink := s.sink ++ seg, writes := s.writes ++ [seg], answers := later,
      txs := { active := true, seg := s.txs.seg + 1, idx := 0 } }) ∧
  (∀ (s : State) (seg : List Byte) (kind : FailKind) (delivered : Nat) (later : List Answer),
    s.txs.active = true → s.txs.idx = 0 →
    (stateSegs s)[s.txs.seg]? = some seg → s.answers = .fail kind delivered :: later →
    txStep s = raise (failCause kind) { s with
      sink := s.sink ++ seg.take delivered, writes := s.writes ++ [seg], answers := later }) ∧
  ∀ s : State, LayoutWF s.params.layout → s.fbv = true →
    exec .tx s = .next (txStep^[(stateSegs s).length + 1] (startTx s))

/-- R134, R36: a TX that waits and goes on when the Transport's further answers come ends as if they had all been there
from the start. -/
def Obligations.WaitingTransmitResumes : Prop :=
  ∀ (s t : State) (first later : List Answer), LayoutWF s.params.layout → s.fbv = true →
    exec .tx { s with answers := first } = .next t → t.txs.active = true →
    exec .tx { s with answers := first ++ later } = .next (resumeTx { t with answers := later })

/-- R151: two flash steps, NEG TX NEG TX, with every write answered `ok`, show the complement and then the original, and
leave the frame register as it was, where the block takes commands. R152: to a block that takes none, halted or with a TX
or a packet in progress, the host issues nothing; that its loop then waits is the model's reading (log entry 27). -/
def Obligations.FlashTwiceRestores : Prop :=
  (∀ s : State, acceptsCommand s = true → LayoutWF s.params.layout → s.fbv = true → IsFrame s.params.layout s.fb →
    s.answers = List.replicate (2 * (stateSegs s).length) .ok →
    ∃ t, hostRun [.neg, .tx, .neg, .tx] s = .next t ∧ t.fb = s.fb ∧ t.fbv = true ∧ t.faults = s.faults ∧
      t.rspOut = s.rspOut ++ [0x00#8, 0x00#8, 0x00#8, 0x00#8] ∧
      t.sink = s.sink ++ txStream s.params.layout (negative s.params.layout s.fb) ++
        txStream s.params.layout s.fb) ∧
  ∀ (i : Instr) (later : List Instr) (s : State), acceptsCommand s = false → hostRun (i :: later) s = .next s

/-! ### The receiver -/

/-- R165, R166: a wire byte up to the threshold (every PIX under the default threshold 127, R80), in AwaitingColumnByte
with an empty `acc`, overwrites the column under the cursor and advances the cursor; nothing else changes. That a column past
WRX, which no run reaches, overflows like WRX itself is the model's choice (log entry 16). -/
def Obligations.PixelByteShown : Prop :=
  ∀ (i : Instr) (b : Byte) (s : State) (r : Rx), ((∃ v, i = .pix v) ∨ ∃ v, i = .ctl v) → encode i = [b] →
    LayoutWF s.params.layout → ReceiverWF s.params →
    s.rx = .running r → r.st = .awaitingColumnByte → r.acc = [] → b.toNat ≤ s.params.rx.threshold →
    exec i s = .next { s with rx := .running { r with
      grid :=
        (if r.band = .band0 then { r.grid with band0 := r.grid.band0.set r.col (b &&& mask s.params.layout) }
        else { r.grid with band1 := r.grid.band1.set r.col (b &&& mask s.params.layout) })
      col :=
        if r.col + 1 < s.params.rx.width then r.col + 1
        else if s.params.rx.overflow = .wrap then 0 else s.params.rx.width - 1 } }

/-- R162, R164 (a), with R163's disabling of case (b) when `B = L`: a wire byte above the threshold (every CTL under the
default threshold 127, R80) completes CS1, completes CS2, extends a control sequence or is unrecognised; a receiver
that goes on keeps its grid, and nothing else changes. That with `B = L` a beginning of CS2 still counts and a completed
CS2 is unrecognised is the model's reading (log entry 15), and so is that an unrecognised byte gives a next state with an
undefined receiver, which has no grid (log entry 14). -/
def Obligations.ControlByteMovesCursor : Prop :=
  ∀ (i : Instr) (b : Byte) (s : State) (r : Rx), ((∃ v, i = .ctl v) ∨ ∃ v, i = .pix v) → encode i = [b] →
    LayoutWF s.params.layout → ReceiverWF s.params → s.rx = .running r → s.params.rx.threshold < b.toNat →
    let acc := r.acc ++ [b]
    let layout := s.params.layout
    let isCs2 := layout.B < layout.L ∧ acc = layout.cs2
    let starts := (acc <+: layout.cs1 ∧ acc ≠ layout.cs1) ∨ (acc <+: layout.cs2 ∧ acc ≠ layout.cs2)
    (acc = layout.cs1 →
      exec i s = .next { s with
        rx := .running { r with st := .awaitingColumnByte, acc := [], band := .band0, col := 0 } }) ∧
    (acc ≠ layout.cs1 → isCs2 →
      exec i s = .next { s with
        rx := .running { r with st := .awaitingColumnByte, acc := [], band := .band1, col := 0 } }) ∧
    (acc ≠ layout.cs1 → ¬isCs2 → starts →
      exec i s = .next { s with
        rx := .running { r with st := .awaitingRowOrColumnControl, acc := acc } }) ∧
    (acc ≠ layout.cs1 → ¬isCs2 → ¬starts → exec i s = .next { s with rx := .undefined })

/-- R164 (b), (c): a byte up to the threshold inside an unfinished control sequence or before any control sequence leaves
the receiver undefined and changes nothing else; an undefined receiver stays so whatever comes, and nothing else
changes. That the rest of the machine goes on is the model's reading (log entry 14). -/
def Obligations.UndefinedReceiverInputs : Prop :=
  ∀ (i : Instr) (b : Byte) (s : State), ((∃ v, i = .pix v) ∨ ∃ v, i = .ctl v) → encode i = [b] →
    LayoutWF s.params.layout → ReceiverWF s.params →
    (∀ r : Rx, s.rx = .running r → b.toNat ≤ s.params.rx.threshold →
      (r.acc ≠ [] ∨ r.st = .awaitingRowOrColumnControl) → exec i s = .next { s with rx := .undefined }) ∧
    (s.rx = .undefined → exec i s = .next s)

/-- R170, R172: the round trip. A running receiver with an empty `acc`, threshold 127 and a grid at least `max(B, L-B)`
wide that consumes the stream of a packed frame shows exactly the expected grid of R169. RX as a Transport consumes its
writes in order and answers each `ok`. And over the machine: from a ready block with `PACK cols; TX` on its command port
and RX as its Transport, some number of steps ends in two responses 0x00, no fault, and a device that shows exactly that
grid. -/
def Obligations.RoundTripShowsFrame : Prop :=
  (∀ (p : Params) (r : Rx) (cols : List Byte), LayoutWF p.layout → p.rx.threshold = 127 →
    max p.layout.B (p.layout.L - p.layout.B) ≤ p.rx.width →
    r.grid.band0.length = p.rx.width → r.grid.band1.length = p.rx.width → r.acc = [] →
    ∃ r', rxRun p (.running r) (txStream p.layout (pack p.layout cols)) = .running r' ∧
      r'.grid = expectedGrid p.layout (pack p.layout cols) r.grid ∧ r'.acc = [] ∧ r'.st = .awaitingColumnByte) ∧
  (∀ (p : Params) (rx : Receiver) (writes : List (List Byte)),
    rxWrites p rx writes = (rxRun p rx writes.flatten, List.replicate writes.length .ok)) ∧
  ∀ (s : State) (r : Rx) (cols : List Byte), EncoderReady s → s.dec = .boundary → s.rxSeen = s.sink.length →
    ReceiverWF s.params → s.params.rx.threshold = 127 →
    max s.params.layout.B (s.params.layout.L - s.params.layout.B) ≤ s.params.rx.width →
    s.rx = .running r → r.grid.band0.length = s.params.rx.width → r.grid.band1.length = s.params.rx.width →
    r.acc = [] → (Instr.pack cols).WellFormed → s.cmdIn = encode (.pack cols) ++ encode .tx →
    s.answers = (rxWrites s.params s.rx (segs s.params.layout (pack s.params.layout cols))).2 →
    ∃ (n : Nat) (t : State) (r' : Rx), Sys2Proof.core.run n s = .next t ∧ t.rx = .running r' ∧
      r'.grid = expectedGrid s.params.layout (pack s.params.layout cols) r.grid ∧ r'.acc = [] ∧
      r'.st = .awaitingColumnByte ∧ t.fb = pack s.params.layout cols ∧ t.faults = s.faults ∧ t.busy = false ∧
      t.cmdIn = [] ∧ t.answers = [] ∧ t.rxSeen = t.sink.length ∧
      t.sink = s.sink ++ txStream s.params.layout (pack s.params.layout cols) ∧
      t.rspOut = s.rspOut ++ [0x00#8, 0x00#8]

/-- R169: in the expected grid of a packed frame, logical column `i` at wire position `π(i)` is shown in band 0 column
`π(i)` below the row break and in band 1 column `π(i) - B` from it on; cells outside the frame keep their value. As a 2D
boolean grid it has `2K` pixel rows, `K` when `B = L`, and bit `y` of the column is row `y` or `K + y`. -/
def Obligations.LogicalColumnShown : Prop :=
  ∀ layout : Layout, LayoutWF layout → ∀ (cols : List Byte) (old : Grid),
    (∀ i c y, i < layout.L → cols[i]? = some c → y < layout.K → remapOf layout i < layout.B →
      gridPixel layout (expectedGrid layout (pack layout cols) old) y (remapOf layout i) = some (c.getLsbD y)) ∧
    (∀ i c y, i < layout.L → cols[i]? = some c → y < layout.K → layout.B ≤ remapOf layout i →
      gridPixel layout (expectedGrid layout (pack layout cols) old) (layout.K + y) (remapOf layout i - layout.B) =
        some (c.getLsbD y)) ∧
    (∀ (g : Grid) (y col : Nat), gridRows layout ≤ y → gridPixel layout g y col = none) ∧
    gridRows layout = (if layout.B < layout.L then 2 * layout.K else layout.K) ∧
    (∀ i c, i < layout.L → cols[i]? = some c → remapOf layout i < layout.B →
      (expectedGrid layout (pack layout cols) old).band0[remapOf layout i]? = some (c &&& mask layout)) ∧
    (∀ i c, i < layout.L → cols[i]? = some c → layout.B ≤ remapOf layout i →
      (expectedGrid layout (pack layout cols) old).band1[remapOf layout i - layout.B]? = some (c &&& mask layout)) ∧
    (∀ c, layout.B ≤ c → (expectedGrid layout (pack layout cols) old).band0[c]? = old.band0[c]?) ∧
    ∀ c, layout.L - layout.B ≤ c → (expectedGrid layout (pack layout cols) old).band1[c]? = old.band1[c]?

/-- R173 (a): with `WRX = B = L - B` the whole grid is a function of the last frame sent and not of earlier history. -/
def Obligations.LastFrameDeterminesGrid : Prop :=
  ∀ (p : Params) (r₁ r₂ r₁' r₂' : Rx) (cols : List Byte), LayoutWF p.layout → p.rx.threshold = 127 →
    p.layout.B = p.layout.L - p.layout.B → p.rx.width = p.layout.B →
    r₁.grid.band0.length = p.rx.width → r₁.grid.band1.length = p.rx.width →
    r₂.grid.band0.length = p.rx.width → r₂.grid.band1.length = p.rx.width →
    r₁.acc = [] → r₂.acc = [] →
    rxRun p (.running r₁) (txStream p.layout (pack p.layout cols)) = .running r₁' →
    rxRun p (.running r₂) (txStream p.layout (pack p.layout cols)) = .running r₂' →
    r₁'.grid = r₂'.grid ∧ r₁'.grid = { band0 := (pack p.layout cols).take p.layout.B,
                                       band1 := (pack p.layout cols).drop p.layout.B }

/-! ### Responses and faults -/

/-- R76, R180, R184: raising a fault sets its FAULTS bit and no other, sets HALT for ILLEGAL_CMD alone, emits its code,
clears BUSY and abandons the rest of the command; nothing else changes. That the sequencer and the
decoder are idle after it is the model's reading (log entry 30). -/
def Obligations.FaultEntry : Prop :=
  ∀ (c : Cause) (bit : BitVec 5) (code : Byte) (halts : Bool) (s : State),
    (c, bit, code, halts) ∈ [(Cause.teDisconnected, 0b00001#5, 0x01#8, false),
      (Cause.teTimeout, 0b00010#5, 0x02#8, false), (Cause.teWriteRejected, 0b00100#5, 0x03#8, false),
      (Cause.illegalCmd, 0b01000#5, 0x04#8, true), (Cause.fbInvalid, 0b10000#5, 0x05#8, false)] →
    raise c s = { s with
      faults := s.faults ||| bit, halt := s.halt || halts, rspOut := s.rspOut ++ [code], busy := false,
      txs := Sequencer.idle, dec := .boundary }

/-- R76, R181 to R183: the six response rows each answer a next state: the command ends with the row's code, and, for a
fault's row, with its FAULTS bit; HALT is set by RSP_ILLEGAL_CMD alone; nothing else changes. That a
response row run as an instruction is the end of a command is the model's reading (log entry 19), and so is that the
sequencer and the decoder are idle after it (log entry 30). -/
def Obligations.ResponseRows : Prop :=
  ∀ (i : Instr) (bit : BitVec 5) (code : Byte) (halts : Bool) (s : State),
    (i, bit, code, halts) ∈ [(Instr.rspOk, 0b00000#5, 0x00#8, false),
      (Instr.rspTeDisconnected, 0b00001#5, 0x01#8, false), (Instr.rspTeTimeout, 0b00010#5, 0x02#8, false),
      (Instr.rspTeWriteRejected, 0b00100#5, 0x03#8, false), (Instr.rspIllegalCmd, 0b01000#5, 0x04#8, true),
      (Instr.rspFbInvalid, 0b10000#5, 0x05#8, false)] →
    exec i s = .next { s with
      faults := s.faults ||| bit, halt := s.halt || halts, rspOut := s.rspOut ++ [code], busy := false,
      txs := Sequencer.idle, dec := .boundary }

/-- R183: a reserved byte at an opcode position: FAULTS bit 3 and HALT are set, the response is 0x04, FB and FBV and all
else are unchanged, and from then on the block does nothing until reset. That the
sequencer is idle after it is the model's reading (log entry 30). -/
def Obligations.IllegalOpcodeHalts : Prop :=
  ∀ (s t : State) (b : Byte) (rest : List Byte), EncoderReady s → s.dec = .boundary → s.cmdIn = b :: rest →
    4 ≤ b.toNat →
    t = { s with
      cmdIn := rest, faults := s.faults ||| 0b01000#5, halt := true, rspOut := s.rspOut ++ [0x04#8], busy := false,
      txs := Sequencer.idle } →
    step s = .next t ∧ step t = .fault .halted

/-- R76: every command that is executed ends with exactly one response byte of R76, but for a TX whose Transport has
stopped answering, which has none and is still busy. -/
def Obligations.OneResponsePerCommand : Prop :=
  ∀ (i : Instr) (s t : State), i.space = .cmd → exec i s = .next t →
    (t.busy = false ∧ ∃ code : Byte, code.toNat ≤ 5 ∧ t.rspOut = s.rspOut ++ [code]) ∨
    (i = .tx ∧ t.busy = true ∧ t.txs.active = true ∧ t.answers = [] ∧ t.rspOut = s.rspOut)

/-- R35, R186: without reset no step clears a FAULTS bit. -/
def Obligations.FaultBitsSticky : Prop :=
  ∀ s t : State, step s = .next t → (s.resetPin = none ∨ s.powerUpPin = true) →
    ∀ k, s.faults.getLsbD k = true → t.faults.getLsbD k = true

/-- R35, R186: while HALT = 1 and without reset, no step consumes a command byte, emits a response, writes to the
Transport or changes a register of the encoder. -/
def Obligations.HaltedUntilReset : Prop :=
  ∀ s t : State, step s = .next t → s.halt = true → s.resetPin = none →
    t.halt = true ∧ t.cmdIn = s.cmdIn ∧ t.rspOut = s.rspOut ∧ t.writes = s.writes ∧ t.answers = s.answers ∧
    t.fb = s.fb ∧ t.fbv = s.fbv ∧ t.faults = s.faults ∧ t.busy = s.busy ∧ t.txs = s.txs ∧ t.dec = s.dec

/-! ### Reset -/

/-- R200, R201: the reset input puts the block's flags, sequencer and decoder at their reset values from every state, and
leaves the Layout, the ports and the device alone; nothing reaches the device but a prefix of the segment a TX was
writing. Of FB, which the spec leaves unspecified, nothing is said. That the
ports keep what they hold is the model's choice (log entry 12). -/
def Obligations.ResetTaken : Prop :=
  ∀ (s : State) (delivered : Nat), LayoutWF s.params.layout → s.powerUpPin = false → s.resetPin = some delivered →
    ∃ t, step s = .next t ∧ t.fbv = false ∧ t.busy = false ∧ t.halt = false ∧ t.faults = 0#5 ∧
      t.txs = Sequencer.idle ∧ t.dec = .boundary ∧ t.params = s.params ∧ t.cmdIn = s.cmdIn ∧
      t.rspOut = s.rspOut ∧ t.writes = s.writes ∧ t.answers = s.answers ∧ t.rx = s.rx ∧ t.rxSeen = s.rxSeen ∧
      (s.txs.active = false → t.sink = s.sink) ∧
      (∀ seg, s.txs.active = true → (stateSegs s)[s.txs.seg]? = some seg → t.sink = s.sink ++ seg.take delivered)

/-- R41, R38: the state after reset, for every configuration. Of FB nothing is said. -/
def Obligations.ResetState : Prop :=
  ∀ p : Params,
    (State.resetWith p).params = p ∧ (State.resetWith p).fbv = false ∧ (State.resetWith p).busy = false ∧
    (State.resetWith p).halt = false ∧ (State.resetWith p).faults = 0#5 ∧
    (State.resetWith p).txs = { active := false, seg := 0, idx := 0 } ∧ (State.resetWith p).dec = .boundary ∧
    (State.resetWith p).sink = [] ∧
    (State.resetWith p).rx = .running
      { st := .awaitingRowOrColumnControl, acc := [], band := .band0, col := 0, grid := p.rx.initialGrid }

/-! ### The step -/

/-- R20, R37, R61: when the bytes on the command port complete a packet, the step is `exec` of the decoded command at the
state in which those bytes are consumed and BUSY is set; when a byte of H waits for the device, the step is `exec` of
that wire byte at the state in which it is consumed.
That the device goes before the encoder is the model's choice (log entry 8). -/
def Obligations.StepRunsDecodedInstruction : Prop :=
  (∀ (s : State) (i : Instr) (rest : List Byte), EncoderReady s → feed s.dec s.cmdIn = .done i rest →
    step s = exec i { s with cmdIn := rest, dec := .boundary, busy := true }) ∧
  ∀ (s : State) (b : Byte), LayoutWF s.params.layout → s.powerUpPin = false → s.resetPin = none →
    s.sink[s.rxSeen]? = some b →
    step s = exec (decodeWire b) { s with rxSeen := s.rxSeen + 1 }

/-- R61, R71: an encoded command at a packet boundary is executed, and the step leaves the bytes of the next packet on
the command port for the next step. -/
def Obligations.EncodedCommandRuns : Prop :=
  ∀ (s : State) (i : Instr) (rest : List Byte), EncoderReady s → s.dec = .boundary → i.WellFormed → i.space = .cmd →
    s.cmdIn = encode i ++ rest → step s = exec i { s with cmdIn := rest, dec := .boundary, busy := true }

/-- R79, R112: a packet that stops short is kept with BUSY = 1 and nothing else changed; with no more bytes the block is
stuck; when the rest arrives the command is executed as if it had come at once. -/
def Obligations.CommandUnderrunWaits : Prop :=
  ∀ (s : State) (i : Instr) (xs ys rest : List Byte), EncoderReady s → s.dec = .boundary → i.WellFormed →
    i.space = .cmd → encode i = xs ++ ys → xs ≠ [] → ys ≠ [] → s.cmdIn = xs →
    ∃ pos, step s = .next { s with dec := pos, cmdIn := [], busy := true } ∧
      step { s with dec := pos, cmdIn := [], busy := true } = .fault .commandUnderrun ∧
      step { s with dec := pos, cmdIn := ys ++ rest, busy := true } =
        exec i { s with cmdIn := rest, dec := .boundary, busy := true }

/-- R134, R214: a TX in progress whose write is not answered is stuck; with an answer it goes on. -/
def Obligations.SilentTransportStalls : Prop :=
  ∀ s : State, LayoutWF s.params.layout → s.powerUpPin = false → s.resetPin = none → nextWireByte s = none →
    s.halt = false → s.txs.active = true →
    (s.answers = [] → step s = .fault .transportSilent) ∧ (s.answers ≠ [] → step s = .next (resumeTx s))

/-- R35, R79, R134, R214: for a well-formed configuration the machine is never refused and stops nowhere but where the
spec says that the block is stuck. That a block at a packet boundary without a command is such a place
is the model's reading (log entry 21). -/
def Obligations.StopsOnlyWhereStuck : Prop :=
  ∀ s : State, LayoutWF s.params.layout → ReceiverWF s.params →
    (∃ t, step s = .next t) ∨
    ((∃ r, step s = .fault r) ∧ s.powerUpPin = false ∧ s.resetPin = none ∧ nextWireByte s = none ∧ EncoderStuck s)

/-- R22, U1: for a Layout that is not well-formed nothing that could need it has a meaning; with a well-formed Layout
the wire bytes have none where the receiver's parameters are outside R160 and R161 (the model's choice, log entry
20). -/
def Obligations.IllFormedConfigurationRefused : Prop :=
  (∀ s : State, ¬LayoutWF s.params.layout →
    step s = .refused .illFormedLayout ∧
    ∀ i : Instr, i.space ≠ .rsp → exec i s = .refused .illFormedLayout) ∧
  ∀ (i : Instr) (s : State), i.space = .wire → LayoutWF s.params.layout → ¬ReceiverWF s.params →
    exec i s = .refused .illFormedReceiver

/-- R21, R22: no step changes the configuration. -/
def Obligations.ConfigurationNeverChanges : Prop :=
  (∀ (i : Instr) (s t : State), exec i s = .next t → t.params = s.params) ∧
  ∀ s t : State, step s = .next t → t.params = s.params

/-- R38: without a power-up of the device H is only appended to. -/
def Obligations.SinkOnlyGrows : Prop :=
  ∀ s t : State, step s = .next t → s.powerUpPin = false → ∃ more, t.sink = s.sink ++ more

/-- R39: the encoder observes nothing of the device: whatever the device's state, a step that has a next state has the
same one but for the device. -/
def Obligations.DeviceCannotInfluenceEncoder : Prop :=
  ∀ (s t : State) (other : Receiver), step s = .next t →
    ∃ other', step { s with rx := other } = .next { t with rx := other' }

/-! ### Invariants that every step keeps -/

/-- R43: whenever FBV = 1 the frame register holds a Frame. -/
def Obligations.StepKeepsFrame : Prop :=
  ∀ s t : State, FrameInv s → step s = .next t → FrameInv t

/-- R35, R36, R37: BUSY, TXS, the decoder, HALT and FAULTS stay consistent. What an active sequencer
counts as handed over is the model's reading (log entry 10). -/
def Obligations.StepKeepsControlState : Prop :=
  ∀ s t : State, ControlInv s → step s = .next t → ControlInv t

/-- R81, R82, R83: every byte the encoder has sent is a pixel byte within the mask or a byte of a configured control
sequence. -/
def Obligations.StepKeepsWireBytes : Prop :=
  ∀ s t : State, FrameInv s → ControlInv s → SinkInv s → step s = .next t → SinkInv t

/-- R39: the device's state is a function of the history it has consumed. -/
def Obligations.StepKeepsDeviceHistory : Prop :=
  ∀ s t : State, DeviceInv s → step s = .next t → DeviceInv t

/-- R76, R131: every response byte is one of the six and no write is empty. -/
def Obligations.StepKeepsPortRecords : Prop :=
  ∀ s t : State, ResponseInv s → WritesInv s → step s = .next t → ResponseInv t ∧ WritesInv t

/-- The invariants hold after reset, for every configuration. That FB has `L` cells rests on the value the model names
for FB at reset (log entry 3, DESIGN CHOICE). -/
def Obligations.ResetMeetsInvariants : Prop :=
  ∀ p : Params, FrameInv (State.resetWith p) ∧ ControlInv (State.resetWith p) ∧ SinkInv (State.resetWith p) ∧
    DeviceInv (State.resetWith p) ∧ ResponseInv (State.resetWith p) ∧ WritesInv (State.resetWith p)

/-! ### The collaborators -/

/-- R101: a key gives its entry, the space character the space glyph, any other character the fallback, byte for byte.
That the space entry stands apart from the keys is the model's form of the table (log entry 25). -/
def Obligations.LookupNeverFails : Prop :=
  (∀ table : GlyphTable, lookup table ' ' = table.space) ∧
  (∀ (table : GlyphTable) (ch : Char) (cols : List Byte), ch ≠ ' ' → table.glyphs.lookup ch = some cols →
    lookup table ch = cols) ∧
  ∀ (table : GlyphTable) (ch : Char), ch ≠ ' ' → (∀ g ∈ table.glyphs, g.1 ≠ ch) → lookup table ch = table.fallback

/-- R103: the exact length of an encoded string, and it ends in all of its last glyph. -/
def Obligations.EncodedStringLength : Prop :=
  ∀ (table : GlyphTable) (delimiter : List Byte) (r : Nat),
    encodeString table delimiter r [] = [] ∧
    (∀ s : List Char, s ≠ [] →
      (encodeString table delimiter r s).length =
        (s.map fun c => (lookup table c).length).sum + (s.length - 1) * r * delimiter.length) ∧
    ∀ (s : List Char) (c : Char), ∃ before, encodeString table delimiter r (s ++ [c]) = before ++ lookup table c

/-- R147: the blank columns before and after a centred text, the extra one after it. R146, R86: the default width of a
single-band Layout is `L` and that of a two-band Layout with a row-1 region `B`; a CENTER with a width in `1..L` is the PACK
of the centred columns. That there is no default when `B = 0` and no expansion for a width outside `1..L` is the model's
choice (log entries 31, 32). -/
def Obligations.CenteringPolicy : Prop :=
  (∀ width w, w ≤ width →
    centerPadding width w = (width - w) / 2 ∧ centerPadding width w + w + centerAfter width w = width ∧
    centerAfter width w = centerPadding width w + (width - w) % 2) ∧
  (∀ width w, width < w → centerPadding width w = 0) ∧
  (∀ width (text : List Byte), center width text = zeros (centerPadding width text.length) ++ text) ∧
  ∀ (fonts : Fonts) (layout : Layout) (cols : Operand), LayoutWF layout →
    (layout.B = layout.L → displayWidth layout none = some layout.L) ∧
    (0 < layout.B → layout.B < layout.L → displayWidth layout none = some layout.B) ∧
    (layout.B = 0 → displayWidth layout none = none) ∧
    ∀ w, (1 ≤ w → w ≤ layout.L →
        expand fonts layout (.center (some w) cols) = some [hostPack (center w (operandBytes fonts.single cols))]) ∧
      (w = 0 ∨ layout.L < w → expand fonts layout (.center (some w) cols) = none)

/-- R149, R150: a scroll sends `P - L + 1` windows when `P >= L` and none otherwise; window `o` is the `L` columns of the
padded sequence from offset `o` on. R86, R149: SCROLL with a width in `1..L` is a PACK and
a TX for each window, in order. That there is no expansion for another width is the model's choice (log entry 32). -/
def Obligations.ScrollWindows : Prop :=
  ∀ (layout : Layout) (width : Nat) (text : List Byte),
    (scrollPadded width text).length = 2 * width + text.length ∧
    (layout.L ≤ 2 * width + text.length →
      (scrollWindows layout width text).length = 2 * width + text.length - layout.L + 1) ∧
    (2 * width + text.length < layout.L → scrollWindows layout width text = []) ∧
    (∀ (o : Nat) (w : List Byte), (scrollWindows layout width text)[o]? = some w →
      w.length = layout.L ∧ ∀ k, k < layout.L → w[k]? = (scrollPadded width text)[o + k]?) ∧
    ∀ (fonts : Fonts) (cols : Operand), operandBytes fonts.single cols = text →
      (1 ≤ width → width ≤ layout.L →
        ∃ cmds, expand fonts layout (.scroll (some width) cols) = some cmds ∧
          cmds.length = 2 * (scrollWindows layout width text).length ∧
          ∀ (o : Nat) (w : List Byte), (scrollWindows layout width text)[o]? = some w →
            cmds[2 * o]? = some (hostPack w) ∧ cmds[2 * o + 1]? = some .tx) ∧
      (width = 0 ∨ layout.L < width → expand fonts layout (.scroll (some width) cols) = none)
end

