-- ==== Sys2Proof/Laws/Caller.lean ====
section
/-! SUPPORT. What the caller-side procedures and the receiver as a Transport can do, each said once. -/

namespace Sys2Proof.Machine

open Sys2Proof

/-! ### The display width -/

theorem widthOk_iff {layout : Layout} {w : Nat} : widthOk layout w = true ↔ 1 ≤ w ∧ w ≤ layout.L := by
  simp [widthOk]

/-- A width that CENTER and SCROLL use is in the range of R146. -/
theorem displayWidth_bounds {layout : Layout} {asked : Option Nat} {w : Nat}
    (h : displayWidth layout asked = some w) : 1 ≤ w ∧ w ≤ layout.L :=
  widthOk_iff.1 (Option.filter_eq_some_iff.1 h).2

/-! ### The host's loop -/

/-- A command that the block takes and answers with 0x00 is followed by the next one. -/
theorem hostRun_cons_of_ok {i : Instr} {s t : State} (later : List Instr) (ha : acceptsCommand s = true)
    (he : exec i s = .next t) (hb : t.busy = false) (hr : t.rspOut.getLast? = some okCode) :
    hostRun (i :: later) s = hostRun later t := by
  simp [hostRun, ha, he, hb, hr]

/-- A block after the end of a command takes the next one, unless it is halted. -/
theorem acceptsCommand_endCommand (s : State) : acceptsCommand (endCommand s) = !s.halt := by
  simp [acceptsCommand, endCommand, Sequencer.idle]

/-! ### The receiver over a sequence -/

@[simp] theorem rxRun_nil (p : Params) (rx : Receiver) : rxRun p rx [] = rx := rfl

/-- Two stretches of bytes are consumed one after the other. -/
theorem rxRun_append_bytes (p : Params) (rx : Receiver) (xs ys : List Byte) :
    rxRun p rx (xs ++ ys) = rxRun p (rxRun p rx xs) ys := List.foldl_append ..

/-! ### The pixel grid -/

/-- A pixel row has a place exactly when it is in the grid. -/
theorem rowPlace_isSome (layout : Layout) (y : Nat) : (rowPlace layout y).isSome = decide (y < gridRows layout) := by
  simp only [rowPlace]; split <;> simp_all

end Sys2Proof.Machine
end

