-- ==== Sys2Proof/Laws/State.lean ====
section
/-! SUPPORT. For each update of State and each field, what the field is after the update. -/

namespace Sys2Proof.Machine

open Sys2Proof

/-! ### storeFrame -/

@[simp] theorem storeFrame_params (f : List Byte) (s : State) : (storeFrame f s).params = s.params := rfl
@[simp] theorem storeFrame_fb (f : List Byte) (s : State) : (storeFrame f s).fb = f := rfl
@[simp] theorem storeFrame_fbv (f : List Byte) (s : State) : (storeFrame f s).fbv = true := rfl
@[simp] theorem storeFrame_busy (f : List Byte) (s : State) : (storeFrame f s).busy = s.busy := rfl
@[simp] theorem storeFrame_halt (f : List Byte) (s : State) : (storeFrame f s).halt = s.halt := rfl
@[simp] theorem storeFrame_faults (f : List Byte) (s : State) : (storeFrame f s).faults = s.faults := rfl
@[simp] theorem storeFrame_txs (f : List Byte) (s : State) : (storeFrame f s).txs = s.txs := rfl
@[simp] theorem storeFrame_dec (f : List Byte) (s : State) : (storeFrame f s).dec = s.dec := rfl
@[simp] theorem storeFrame_cmdIn (f : List Byte) (s : State) : (storeFrame f s).cmdIn = s.cmdIn := rfl
@[simp] theorem storeFrame_rspOut (f : List Byte) (s : State) : (storeFrame f s).rspOut = s.rspOut := rfl
@[simp] theorem storeFrame_writes (f : List Byte) (s : State) : (storeFrame f s).writes = s.writes := rfl
@[simp] theorem storeFrame_answers (f : List Byte) (s : State) : (storeFrame f s).answers = s.answers := rfl
@[simp] theorem storeFrame_sink (f : List Byte) (s : State) : (storeFrame f s).sink = s.sink := rfl
@[simp] theorem storeFrame_rxSeen (f : List Byte) (s : State) : (storeFrame f s).rxSeen = s.rxSeen := rfl
@[simp] theorem storeFrame_rx (f : List Byte) (s : State) : (storeFrame f s).rx = s.rx := rfl
@[simp] theorem storeFrame_resetPin (f : List Byte) (s : State) : (storeFrame f s).resetPin = s.resetPin := rfl
@[simp] theorem storeFrame_powerUpPin (f : List Byte) (s : State) : (storeFrame f s).powerUpPin = s.powerUpPin := rfl

/-! ### endCommand -/

@[simp] theorem endCommand_params (s : State) : (endCommand s).params = s.params := rfl
@[simp] theorem endCommand_fb (s : State) : (endCommand s).fb = s.fb := rfl
@[simp] theorem endCommand_fbv (s : State) : (endCommand s).fbv = s.fbv := rfl
@[simp] theorem endCommand_busy (s : State) : (endCommand s).busy = false := rfl
@[simp] theorem endCommand_halt (s : State) : (endCommand s).halt = s.halt := rfl
@[simp] theorem endCommand_faults (s : State) : (endCommand s).faults = s.faults := rfl
@[simp] theorem endCommand_txs (s : State) : (endCommand s).txs = Sequencer.idle := rfl
@[simp] theorem endCommand_dec (s : State) : (endCommand s).dec = .boundary := rfl
@[simp] theorem endCommand_cmdIn (s : State) : (endCommand s).cmdIn = s.cmdIn := rfl
@[simp] theorem endCommand_rspOut (s : State) : (endCommand s).rspOut = s.rspOut := rfl
@[simp] theorem endCommand_writes (s : State) : (endCommand s).writes = s.writes := rfl
@[simp] theorem endCommand_answers (s : State) : (endCommand s).answers = s.answers := rfl
@[simp] theorem endCommand_sink (s : State) : (endCommand s).sink = s.sink := rfl
@[simp] theorem endCommand_rxSeen (s : State) : (endCommand s).rxSeen = s.rxSeen := rfl
@[simp] theorem endCommand_rx (s : State) : (endCommand s).rx = s.rx := rfl
@[simp] theorem endCommand_resetPin (s : State) : (endCommand s).resetPin = s.resetPin := rfl
@[simp] theorem endCommand_powerUpPin (s : State) : (endCommand s).powerUpPin = s.powerUpPin := rfl

/-! ### respond -/

@[simp] theorem respond_params (c : Byte) (s : State) : (respond c s).params = s.params := rfl
@[simp] theorem respond_fb (c : Byte) (s : State) : (respond c s).fb = s.fb := rfl
@[simp] theorem respond_fbv (c : Byte) (s : State) : (respond c s).fbv = s.fbv := rfl
@[simp] theorem respond_busy (c : Byte) (s : State) : (respond c s).busy = false := rfl
@[simp] theorem respond_halt (c : Byte) (s : State) : (respond c s).halt = s.halt := rfl
@[simp] theorem respond_faults (c : Byte) (s : State) : (respond c s).faults = s.faults := rfl
@[simp] theorem respond_txs (c : Byte) (s : State) : (respond c s).txs = Sequencer.idle := rfl
@[simp] theorem respond_dec (c : Byte) (s : State) : (respond c s).dec = .boundary := rfl
@[simp] theorem respond_cmdIn (c : Byte) (s : State) : (respond c s).cmdIn = s.cmdIn := rfl
@[simp] theorem respond_rspOut (c : Byte) (s : State) : (respond c s).rspOut = s.rspOut ++ [c] := rfl
@[simp] theorem respond_writes (c : Byte) (s : State) : (respond c s).writes = s.writes := rfl
@[simp] theorem respond_answers (c : Byte) (s : State) : (respond c s).answers = s.answers := rfl
@[simp] theorem respond_sink (c : Byte) (s : State) : (respond c s).sink = s.sink := rfl
@[simp] theorem respond_rxSeen (c : Byte) (s : State) : (respond c s).rxSeen = s.rxSeen := rfl
@[simp] theorem respond_rx (c : Byte) (s : State) : (respond c s).rx = s.rx := rfl
@[simp] theorem respond_resetPin (c : Byte) (s : State) : (respond c s).resetPin = s.resetPin := rfl
@[simp] theorem respond_powerUpPin (c : Byte) (s : State) : (respond c s).powerUpPin = s.powerUpPin := rfl

/-! ### raise -/

@[simp] theorem raise_params (c : Cause) (s : State) : (raise c s).params = s.params := rfl
@[simp] theorem raise_fb (c : Cause) (s : State) : (raise c s).fb = s.fb := rfl
@[simp] theorem raise_fbv (c : Cause) (s : State) : (raise c s).fbv = s.fbv := rfl
@[simp] theorem raise_busy (c : Cause) (s : State) : (raise c s).busy = false := rfl
@[simp] theorem raise_halt (c : Cause) (s : State) : (raise c s).halt = haltAfter s.halt c := rfl
@[simp] theorem raise_faults (c : Cause) (s : State) : (raise c s).faults = withCause s.faults c := rfl
@[simp] theorem raise_txs (c : Cause) (s : State) : (raise c s).txs = Sequencer.idle := rfl
@[simp] theorem raise_dec (c : Cause) (s : State) : (raise c s).dec = .boundary := rfl
@[simp] theorem raise_cmdIn (c : Cause) (s : State) : (raise c s).cmdIn = s.cmdIn := rfl
@[simp] theorem raise_rspOut (c : Cause) (s : State) : (raise c s).rspOut = s.rspOut ++ [causeCode c] := rfl
@[simp] theorem raise_writes (c : Cause) (s : State) : (raise c s).writes = s.writes := rfl
@[simp] theorem raise_answers (c : Cause) (s : State) : (raise c s).answers = s.answers := rfl
@[simp] theorem raise_sink (c : Cause) (s : State) : (raise c s).sink = s.sink := rfl
@[simp] theorem raise_rxSeen (c : Cause) (s : State) : (raise c s).rxSeen = s.rxSeen := rfl
@[simp] theorem raise_rx (c : Cause) (s : State) : (raise c s).rx = s.rx := rfl
@[simp] theorem raise_resetPin (c : Cause) (s : State) : (raise c s).resetPin = s.resetPin := rfl
@[simp] theorem raise_powerUpPin (c : Cause) (s : State) : (raise c s).powerUpPin = s.powerUpPin := rfl

/-! ### handOver -/

@[simp] theorem handOver_params (seg : List Byte) (s : State) : (handOver seg s).params = s.params := rfl
@[simp] theorem handOver_fb (seg : List Byte) (s : State) : (handOver seg s).fb = s.fb := rfl
@[simp] theorem handOver_fbv (seg : List Byte) (s : State) : (handOver seg s).fbv = s.fbv := rfl
@[simp] theorem handOver_busy (seg : List Byte) (s : State) : (handOver seg s).busy = s.busy := rfl
@[simp] theorem handOver_halt (seg : List Byte) (s : State) : (handOver seg s).halt = s.halt := rfl
@[simp] theorem handOver_faults (seg : List Byte) (s : State) : (handOver seg s).faults = s.faults := rfl
@[simp] theorem handOver_txs (seg : List Byte) (s : State) : (handOver seg s).txs = { s.txs with idx := seg.length } := rfl
@[simp] theorem handOver_dec (seg : List Byte) (s : State) : (handOver seg s).dec = s.dec := rfl
@[simp] theorem handOver_cmdIn (seg : List Byte) (s : State) : (handOver seg s).cmdIn = s.cmdIn := rfl
@[simp] theorem handOver_rspOut (seg : List Byte) (s : State) : (handOver seg s).rspOut = s.rspOut := rfl
@[simp] theorem handOver_writes (seg : List Byte) (s : State) : (handOver seg s).writes = if s.txs.idx = 0 then s.writes ++ [seg] else s.writes := rfl
@[simp] theorem handOver_answers (seg : List Byte) (s : State) : (handOver seg s).answers = s.answers := rfl
@[simp] theorem handOver_sink (seg : List Byte) (s : State) : (handOver seg s).sink = s.sink := rfl
@[simp] theorem handOver_rxSeen (seg : List Byte) (s : State) : (handOver seg s).rxSeen = s.rxSeen := rfl
@[simp] theorem handOver_rx (seg : List Byte) (s : State) : (handOver seg s).rx = s.rx := rfl
@[simp] theorem handOver_resetPin (seg : List Byte) (s : State) : (handOver seg s).resetPin = s.resetPin := rfl
@[simp] theorem handOver_powerUpPin (seg : List Byte) (s : State) : (handOver seg s).powerUpPin = s.powerUpPin := rfl

/-! ### startTx -/

@[simp] theorem startTx_params (s : State) : (startTx s).params = s.params := rfl
@[simp] theorem startTx_fb (s : State) : (startTx s).fb = s.fb := rfl
@[simp] theorem startTx_fbv (s : State) : (startTx s).fbv = s.fbv := rfl
@[simp] theorem startTx_busy (s : State) : (startTx s).busy = true := rfl
@[simp] theorem startTx_halt (s : State) : (startTx s).halt = s.halt := rfl
@[simp] theorem startTx_faults (s : State) : (startTx s).faults = s.faults := rfl
@[simp] theorem startTx_txs (s : State) : (startTx s).txs = { active := true, seg := 0, idx := 0 } := rfl
@[simp] theorem startTx_dec (s : State) : (startTx s).dec = s.dec := rfl
@[simp] theorem startTx_cmdIn (s : State) : (startTx s).cmdIn = s.cmdIn := rfl
@[simp] theorem startTx_rspOut (s : State) : (startTx s).rspOut = s.rspOut := rfl
@[simp] theorem startTx_writes (s : State) : (startTx s).writes = s.writes := rfl
@[simp] theorem startTx_answers (s : State) : (startTx s).answers = s.answers := rfl
@[simp] theorem startTx_sink (s : State) : (startTx s).sink = s.sink := rfl
@[simp] theorem startTx_rxSeen (s : State) : (startTx s).rxSeen = s.rxSeen := rfl
@[simp] theorem startTx_rx (s : State) : (startTx s).rx = s.rx := rfl
@[simp] theorem startTx_resetPin (s : State) : (startTx s).resetPin = s.resetPin := rfl
@[simp] theorem startTx_powerUpPin (s : State) : (startTx s).powerUpPin = s.powerUpPin := rfl

/-! ### resetBlock -/

@[simp] theorem resetBlock_params (s : State) : (resetBlock s).params = s.params := rfl
@[simp] theorem resetBlock_fb (s : State) : (resetBlock s).fb = zeros s.params.layout.L := rfl
@[simp] theorem resetBlock_fbv (s : State) : (resetBlock s).fbv = false := rfl
@[simp] theorem resetBlock_busy (s : State) : (resetBlock s).busy = false := rfl
@[simp] theorem resetBlock_halt (s : State) : (resetBlock s).halt = false := rfl
@[simp] theorem resetBlock_faults (s : State) : (resetBlock s).faults = 0#5 := rfl
@[simp] theorem resetBlock_txs (s : State) : (resetBlock s).txs = Sequencer.idle := rfl
@[simp] theorem resetBlock_dec (s : State) : (resetBlock s).dec = .boundary := rfl
@[simp] theorem resetBlock_cmdIn (s : State) : (resetBlock s).cmdIn = s.cmdIn := rfl
@[simp] theorem resetBlock_rspOut (s : State) : (resetBlock s).rspOut = s.rspOut := rfl
@[simp] theorem resetBlock_writes (s : State) : (resetBlock s).writes = s.writes := rfl
@[simp] theorem resetBlock_answers (s : State) : (resetBlock s).answers = s.answers := rfl
@[simp] theorem resetBlock_sink (s : State) : (resetBlock s).sink = s.sink := rfl
@[simp] theorem resetBlock_rxSeen (s : State) : (resetBlock s).rxSeen = s.rxSeen := rfl
@[simp] theorem resetBlock_rx (s : State) : (resetBlock s).rx = s.rx := rfl
@[simp] theorem resetBlock_resetPin (s : State) : (resetBlock s).resetPin = s.resetPin := rfl
@[simp] theorem resetBlock_powerUpPin (s : State) : (resetBlock s).powerUpPin = s.powerUpPin := rfl

/-! ### powerUpDevice -/

@[simp] theorem powerUpDevice_params (s : State) : (powerUpDevice s).params = s.params := rfl
@[simp] theorem powerUpDevice_fb (s : State) : (powerUpDevice s).fb = s.fb := rfl
@[simp] theorem powerUpDevice_fbv (s : State) : (powerUpDevice s).fbv = s.fbv := rfl
@[simp] theorem powerUpDevice_busy (s : State) : (powerUpDevice s).busy = s.busy := rfl
@[simp] theorem powerUpDevice_halt (s : State) : (powerUpDevice s).halt = s.halt := rfl
@[simp] theorem powerUpDevice_faults (s : State) : (powerUpDevice s).faults = s.faults := rfl
@[simp] theorem powerUpDevice_txs (s : State) : (powerUpDevice s).txs = s.txs := rfl
@[simp] theorem powerUpDevice_dec (s : State) : (powerUpDevice s).dec = s.dec := rfl
@[simp] theorem powerUpDevice_cmdIn (s : State) : (powerUpDevice s).cmdIn = s.cmdIn := rfl
@[simp] theorem powerUpDevice_rspOut (s : State) : (powerUpDevice s).rspOut = s.rspOut := rfl
@[simp] theorem powerUpDevice_writes (s : State) : (powerUpDevice s).writes = s.writes := rfl
@[simp] theorem powerUpDevice_answers (s : State) : (powerUpDevice s).answers = s.answers := rfl
@[simp] theorem powerUpDevice_sink (s : State) : (powerUpDevice s).sink = [] := rfl
@[simp] theorem powerUpDevice_rxSeen (s : State) : (powerUpDevice s).rxSeen = 0 := rfl
@[simp] theorem powerUpDevice_rx (s : State) : (powerUpDevice s).rx = Receiver.initial s.params := rfl
@[simp] theorem powerUpDevice_resetPin (s : State) : (powerUpDevice s).resetPin = s.resetPin := rfl
@[simp] theorem powerUpDevice_powerUpPin (s : State) : (powerUpDevice s).powerUpPin = false := rfl

/-! ### wireByteTaken -/

@[simp] theorem wireByteTaken_params (s : State) : (wireByteTaken s).params = s.params := rfl
@[simp] theorem wireByteTaken_fb (s : State) : (wireByteTaken s).fb = s.fb := rfl
@[simp] theorem wireByteTaken_fbv (s : State) : (wireByteTaken s).fbv = s.fbv := rfl
@[simp] theorem wireByteTaken_busy (s : State) : (wireByteTaken s).busy = s.busy := rfl
@[simp] theorem wireByteTaken_halt (s : State) : (wireByteTaken s).halt = s.halt := rfl
@[simp] theorem wireByteTaken_faults (s : State) : (wireByteTaken s).faults = s.faults := rfl
@[simp] theorem wireByteTaken_txs (s : State) : (wireByteTaken s).txs = s.txs := rfl
@[simp] theorem wireByteTaken_dec (s : State) : (wireByteTaken s).dec = s.dec := rfl
@[simp] theorem wireByteTaken_cmdIn (s : State) : (wireByteTaken s).cmdIn = s.cmdIn := rfl
@[simp] theorem wireByteTaken_rspOut (s : State) : (wireByteTaken s).rspOut = s.rspOut := rfl
@[simp] theorem wireByteTaken_writes (s : State) : (wireByteTaken s).writes = s.writes := rfl
@[simp] theorem wireByteTaken_answers (s : State) : (wireByteTaken s).answers = s.answers := rfl
@[simp] theorem wireByteTaken_sink (s : State) : (wireByteTaken s).sink = s.sink := rfl
@[simp] theorem wireByteTaken_rxSeen (s : State) : (wireByteTaken s).rxSeen = s.rxSeen + 1 := rfl
@[simp] theorem wireByteTaken_rx (s : State) : (wireByteTaken s).rx = s.rx := rfl
@[simp] theorem wireByteTaken_resetPin (s : State) : (wireByteTaken s).resetPin = s.resetPin := rfl
@[simp] theorem wireByteTaken_powerUpPin (s : State) : (wireByteTaken s).powerUpPin = s.powerUpPin := rfl

/-! ### bytesTaken -/

@[simp] theorem bytesTaken_params (pos : DecoderPos) (rest : List Byte) (s : State) : (bytesTaken pos rest s).params = s.params := rfl
@[simp] theorem bytesTaken_fb (pos : DecoderPos) (rest : List Byte) (s : State) : (bytesTaken pos rest s).fb = s.fb := rfl
@[simp] theorem bytesTaken_fbv (pos : DecoderPos) (rest : List Byte) (s : State) : (bytesTaken pos rest s).fbv = s.fbv := rfl
@[simp] theorem bytesTaken_busy (pos : DecoderPos) (rest : List Byte) (s : State) : (bytesTaken pos rest s).busy = true := rfl
@[simp] theorem bytesTaken_halt (pos : DecoderPos) (rest : List Byte) (s : State) : (bytesTaken pos rest s).halt = s.halt := rfl
@[simp] theorem bytesTaken_faults (pos : DecoderPos) (rest : List Byte) (s : State) : (bytesTaken pos rest s).faults = s.faults := rfl
@[simp] theorem bytesTaken_txs (pos : DecoderPos) (rest : List Byte) (s : State) : (bytesTaken pos rest s).txs = s.txs := rfl
@[simp] theorem bytesTaken_dec (pos : DecoderPos) (rest : List Byte) (s : State) : (bytesTaken pos rest s).dec = pos := rfl
@[simp] theorem bytesTaken_cmdIn (pos : DecoderPos) (rest : List Byte) (s : State) : (bytesTaken pos rest s).cmdIn = rest := rfl
@[simp] theorem bytesTaken_rspOut (pos : DecoderPos) (rest : List Byte) (s : State) : (bytesTaken pos rest s).rspOut = s.rspOut := rfl
@[simp] theorem bytesTaken_writes (pos : DecoderPos) (rest : List Byte) (s : State) : (bytesTaken pos rest s).writes = s.writes := rfl
@[simp] theorem bytesTaken_answers (pos : DecoderPos) (rest : List Byte) (s : State) : (bytesTaken pos rest s).answers = s.answers := rfl
@[simp] theorem bytesTaken_sink (pos : DecoderPos) (rest : List Byte) (s : State) : (bytesTaken pos rest s).sink = s.sink := rfl
@[simp] theorem bytesTaken_rxSeen (pos : DecoderPos) (rest : List Byte) (s : State) : (bytesTaken pos rest s).rxSeen = s.rxSeen := rfl
@[simp] theorem bytesTaken_rx (pos : DecoderPos) (rest : List Byte) (s : State) : (bytesTaken pos rest s).rx = s.rx := rfl
@[simp] theorem bytesTaken_resetPin (pos : DecoderPos) (rest : List Byte) (s : State) : (bytesTaken pos rest s).resetPin = s.resetPin := rfl
@[simp] theorem bytesTaken_powerUpPin (pos : DecoderPos) (rest : List Byte) (s : State) : (bytesTaken pos rest s).powerUpPin = s.powerUpPin := rfl

end Sys2Proof.Machine
end

