-- ==== Sys2Proof/Laws/Ops.lean ====
section
/-! SUPPORT. What the shared operations can do, each said once. -/

namespace Sys2Proof.Machine

open Sys2Proof

/-! ### The guards -/

theorem withLayout_of_wf {s : State} (h : LayoutWF s.params.layout) (k : Host.Outcome State Fault Refusal) :
    withLayout s k = k := if_pos h

theorem withLayout_of_not_wf {s : State} (h : ¬LayoutWF s.params.layout) (k : Host.Outcome State Fault Refusal) :
    withLayout s k = .refused .illFormedLayout := if_neg h

/-- Behind the guard there is a next state only for a well-formed Layout. -/
theorem withLayout_next {s t : State} {k : Host.Outcome State Fault Refusal} :
    withLayout s k = .next t ↔ LayoutWF s.params.layout ∧ k = .next t := by
  by_cases h : LayoutWF s.params.layout
  · rw [withLayout_of_wf h]; exact ⟨fun e => ⟨h, e⟩, fun e => e.2⟩
  · rw [withLayout_of_not_wf h]; exact ⟨nofun, fun e => absurd e.1 h⟩

theorem withReceiver_of_wf {s : State} (h : LayoutWF s.params.layout) (h' : ReceiverWF s.params)
    (k : Host.Outcome State Fault Refusal) : withReceiver s k = k := by
  rw [withReceiver, withLayout_of_wf h, if_pos h']

theorem withReceiver_next {s t : State} {k : Host.Outcome State Fault Refusal} :
    withReceiver s k = .next t ↔ LayoutWF s.params.layout ∧ ReceiverWF s.params ∧ k = .next t := by
  rw [withReceiver, withLayout_next]
  by_cases h : ReceiverWF s.params
  · rw [if_pos h]; exact ⟨fun e => ⟨e.1, h, e.2⟩, fun e => ⟨e.1, e.2.2⟩⟩
  · rw [if_neg h]; exact ⟨fun e => (nomatch e.2), fun e => absurd e.2.1 h⟩

/-! ### The Transport -/

theorem write_of_silent {s : State} (h : s.answers = []) (seg : List Byte) :
    write seg s = .waiting (handOver seg s) := by simp [write, h]

theorem write_of_ok {s : State} {later : List Answer} (h : s.answers = .ok :: later) (seg : List Byte) :
    write seg s = .ok { handOver seg s with answers := later, sink := s.sink ++ seg } := by simp [write, h]

theorem write_of_fail {s : State} {kind : FailKind} {n : Nat} {later : List Answer}
    (h : s.answers = .fail kind n :: later) (seg : List Byte) :
    write seg s = .fail kind { handOver seg s with answers := later, sink := s.sink ++ seg.take n } := by
  simp [write, h]

/-! ### The loop over the segments -/

theorem sendSegs_nil (s : State) : sendSegs [] s = respond okCode s := rfl

theorem sendSegs_of_silent {s : State} (h : s.answers = []) (seg : List Byte) (later : List (List Byte)) :
    sendSegs (seg :: later) s = handOver seg s := by simp [sendSegs, write_of_silent h]

theorem sendSegs_of_ok {s : State} {as : List Answer} (h : s.answers = .ok :: as) (seg : List Byte)
    (later : List (List Byte)) :
    sendSegs (seg :: later) s =
      sendSegs later { handOver seg s with
        answers := as, sink := s.sink ++ seg, txs := { active := true, seg := s.txs.seg + 1, idx := 0 } } := by
  simp [sendSegs, write_of_ok h]

theorem sendSegs_of_fail {s : State} {kind : FailKind} {n : Nat} {as : List Answer}
    (h : s.answers = .fail kind n :: as) (seg : List Byte) (later : List (List Byte)) :
    sendSegs (seg :: later) s =
      raise (failCause kind) { handOver seg s with answers := as, sink := s.sink ++ seg.take n } := by
  simp [sendSegs, write_of_fail h]

/-- The three ways a write goes on, for an induction over the segments. -/
theorem answers_cases (s : State) :
    s.answers = [] ∨ (∃ as, s.answers = .ok :: as) ∨ ∃ kind n as, s.answers = .fail kind n :: as := by
  rcases s.answers with _ | ⟨_ | ⟨kind, n⟩, as⟩
  · exact .inl rfl
  · exact .inr (.inl ⟨as, rfl⟩)
  · exact .inr (.inr ⟨kind, n, as, rfl⟩)

/-- What the loop never touches. -/
theorem sendSegs_frame (ss : List (List Byte)) (s : State) :
    (sendSegs ss s).params = s.params ∧ (sendSegs ss s).fb = s.fb ∧ (sendSegs ss s).fbv = s.fbv ∧
    (sendSegs ss s).halt = s.halt ∧ (sendSegs ss s).cmdIn = s.cmdIn ∧ (sendSegs ss s).rxSeen = s.rxSeen ∧
    (sendSegs ss s).rx = s.rx ∧ (sendSegs ss s).resetPin = s.resetPin ∧
    (sendSegs ss s).powerUpPin = s.powerUpPin := by
  induction ss generalizing s with
  | nil => simp [sendSegs_nil]
  | cons seg later ih =>
    rcases answers_cases s with h | ⟨as, h⟩ | ⟨kind, n, as, h⟩
    · simp [sendSegs_of_silent h]
    · rw [sendSegs_of_ok h]; exact ih _
    · cases kind <;> simp [sendSegs_of_fail h, failCause, haltAfter]

/-! ### The step -/

/-- Everything a step with a next state can be. -/
theorem step_next_cases {s t : State} (h : withLayout s (stepMachine s) = .next t) :
    LayoutWF s.params.layout ∧
    ((s.powerUpPin = true ∧ t = powerUpDevice s) ∨
     (s.powerUpPin = false ∧ ∃ n, s.resetPin = some n ∧ t = takeReset n s) ∨
     (s.powerUpPin = false ∧ s.resetPin = none ∧
       ((∃ b, nextWireByte s = some b ∧ exec (decodeWire b) (wireByteTaken s) = .next t) ∨
        (nextWireByte s = none ∧ s.halt = false ∧
          ((s.txs.active = true ∧ s.answers ≠ [] ∧ t = resumeTx s) ∨
           (s.txs.active = false ∧ s.cmdIn ≠ [] ∧
             ((∃ pos, fetchCommand s = .more pos ∧ t = bytesTaken pos [] s) ∨
              (∃ i rest, fetchCommand s = .done i rest ∧ exec i (bytesTaken .boundary rest s) = .next t) ∨
              ∃ b rest, fetchCommand s = .illegal b rest ∧
                t = raise .illegalCmd (bytesTaken .boundary rest s)))))))) := by
  obtain ⟨hw, h⟩ := withLayout_next.1 h
  refine ⟨hw, ?_⟩
  unfold stepMachine at h
  split at h
  · exact .inl ⟨by assumption, by simpa using h.symm⟩
  · rename_i hp
    have hp : s.powerUpPin = false := by simpa using hp
    refine .inr ?_
    split at h
    · exact .inl ⟨hp, _, by assumption, by simpa using h.symm⟩
    · rename_i hr
      refine .inr ⟨hp, hr, ?_⟩
      unfold stepAgents at h
      split at h
      · exact .inl ⟨_, by assumption, h⟩
      · rename_i hn
        refine .inr ⟨hn, ?_⟩
        unfold stepEncoder at h
        split at h
        · cases h
        · rename_i hh
          refine ⟨by simpa using hh, ?_⟩
          split at h
          · rename_i ha
            split at h
            · cases h
            · exact .inl ⟨ha, by assumption, by simpa using h.symm⟩
          · rename_i ha
            refine .inr ⟨by simpa using ha, ?_⟩
            split at h
            · split at h <;> cases h
            · refine ⟨by assumption, ?_⟩
              unfold stepCommand at h
              split at h
              · exact .inl ⟨_, by assumption, by simpa using h.symm⟩
              · exact .inr (.inl ⟨_, _, by assumption, h⟩)
              · exact .inr (.inr ⟨_, _, by assumption, by simpa [exec, execRspIllegalCmd] using h.symm⟩)

/-! ### The packer and the decoder -/

@[simp] theorem zeros_length (n : Nat) : (zeros n).length = n := List.length_replicate

@[simp] theorem storeCols_length (layout : Layout) (i : Nat) (cols f : List Byte) :
    (storeCols layout i cols f).length = f.length := by
  induction cols generalizing i f with
  | nil => rfl
  | cons c cols ih => simp [storeCols, ih]

@[simp] theorem fit_length (s : List Byte) (k : Nat) : (fit s k).length = k := by
  simp [fit]; omega

@[simp] theorem negative_length (layout : Layout) (f : List Byte) : (negative layout f).length = f.length :=
  List.length_map ..

/-- The decoder never stands at a packet boundary in the middle of a packet. -/
theorem feedByte_more {pos pos' : DecoderPos} {b : Byte} (h : feedByte pos b = .more pos') :
    pos' ≠ .boundary := by
  rintro rfl
  cases pos <;> simp [feedByte, feedOpcode, startCols, startTop, startBottom] at h <;>
    (repeat' split at h) <;> simp_all

end Sys2Proof.Machine
end

