-- ==== Sys2Proof/Laws/PerInstr.lean ====
section
/-! SUPPORT. Facts about every instruction as syntax, one lemma for each row of spec/opcode_table.json. -/

namespace Sys2Proof.Laws

open Sys2Proof

/-- The "match" and "mask" of a row of the opcode table, copied from the table row by row. -/
def tableRow : Instr → Byte × Byte
  | .pack _ => (0x00#8, 0xFF#8)
  | .packd _ _ => (0x01#8, 0xFF#8)
  | .neg => (0x02#8, 0xFF#8)
  | .tx => (0x03#8, 0xFF#8)
  | .rspOk => (0x00#8, 0xFF#8)
  | .rspTeDisconnected => (0x01#8, 0xFF#8)
  | .rspTeTimeout => (0x02#8, 0xFF#8)
  | .rspTeWriteRejected => (0x03#8, 0xFF#8)
  | .rspIllegalCmd => (0x04#8, 0xFF#8)
  | .rspFbInvalid => (0x05#8, 0xFF#8)
  | .pix _ => (0x00#8, 0x80#8)
  | .ctl _ => (0x80#8, 0x80#8)

/-- The first byte of an instruction's encoding matches its row of the opcode table. -/
def FirstByteMatchesRow.Statement (i : Instr) : Prop :=
  ∃ b rest, encode i = b :: rest ∧ b &&& (tableRow i).2 = (tableRow i).1

theorem FirstByteMatchesRow.pack (cols : List Byte) : FirstByteMatchesRow.Statement (.pack cols) :=
  ⟨0x00#8, _, rfl, by simp [tableRow]⟩

theorem FirstByteMatchesRow.packd (top bottom : List Byte) : FirstByteMatchesRow.Statement (.packd top bottom) :=
  ⟨0x01#8, _, rfl, by simp [tableRow]⟩

theorem FirstByteMatchesRow.neg : FirstByteMatchesRow.Statement .neg := ⟨0x02#8, _, rfl, rfl⟩

theorem FirstByteMatchesRow.tx : FirstByteMatchesRow.Statement .tx := ⟨0x03#8, _, rfl, rfl⟩

theorem FirstByteMatchesRow.rspOk : FirstByteMatchesRow.Statement .rspOk := ⟨0x00#8, _, rfl, by simp [tableRow]⟩

theorem FirstByteMatchesRow.rspTeDisconnected : FirstByteMatchesRow.Statement .rspTeDisconnected :=
  ⟨0x01#8, _, rfl, by simp [tableRow]⟩

theorem FirstByteMatchesRow.rspTeTimeout : FirstByteMatchesRow.Statement .rspTeTimeout := ⟨0x02#8, _, rfl, rfl⟩

theorem FirstByteMatchesRow.rspTeWriteRejected : FirstByteMatchesRow.Statement .rspTeWriteRejected :=
  ⟨0x03#8, _, rfl, rfl⟩

theorem FirstByteMatchesRow.rspIllegalCmd : FirstByteMatchesRow.Statement .rspIllegalCmd := ⟨0x04#8, _, rfl, rfl⟩

theorem FirstByteMatchesRow.rspFbInvalid : FirstByteMatchesRow.Statement .rspFbInvalid := ⟨0x05#8, _, rfl, rfl⟩

theorem FirstByteMatchesRow.pix (p : BitVec 7) : FirstByteMatchesRow.Statement (.pix p) :=
  ⟨0#1 ++ p, [], rfl, by simp only [tableRow]; revert p; decide⟩

theorem FirstByteMatchesRow.ctl (c : BitVec 7) : FirstByteMatchesRow.Statement (.ctl c) :=
  ⟨1#1 ++ c, [], rfl, by simp only [tableRow]; revert c; decide⟩

end Sys2Proof.Laws
end

