-- ==== Sys2Proof/Laws/Run.lean ====
section
/-! SUPPORT. Runs of several steps, one step at a time. -/

namespace Sys2Proof.Machine

open Sys2Proof

/-- A run whose first step has a next state goes on from it. -/
theorem run_succ_of_next {M : Host.Core} {s t : M.State} (h : M.step s = .next t) (k : Nat) :
    M.run (k + 1) s = M.run k t := by simp only [Host.Core.run, h]

/-- The same for the machine, in terms of `step`. -/
theorem core_run_succ_of_next {s t : State} (h : step s = .next t) (k : Nat) :
    Sys2Proof.core.run (k + 1) s = Sys2Proof.core.run k t := run_succ_of_next (M := Sys2Proof.core) h k

end Sys2Proof.Machine
end

