-- ==== Sys2Proof/Tests/Slice0.lean ====
section
/-! SUPPORT. Tests. Expected values are the vectors of spec/95_test_vectors.md or are read from the rule named in the
docstring. The `witness_` theorems show, for each obligation with hypotheses, concrete states and operands that meet
them. -/

namespace Sys2Proof.Tests

open Sys2Proof Sys2Proof.Machine

/-! ### The configurations of spec/95_test_vectors.md section 0, and states over them -/

def plain (l b k : Nat) : Layout :=
  { L := l, B := b, K := k, remapEn := false, remap := [], cs1 := [0x81#8], cs2 := [0x82#8] }

def row : Layout := plain 10 10 7
def k5 : Layout := plain 4 4 5
def k1 : Layout := plain 3 3 1
def b0 : Layout := plain 3 0 7
def rot : Layout :=
  { L := 8, B := 4, K := 7, remapEn := true, remap := [3, 4, 5, 6, 7, 0, 1, 2], cs1 := [0x82#8], cs2 := [0x83#8] }
def rev : Layout :=
  { L := 6, B := 3, K := 7, remapEn := true, remap := [0, 1, 2, 5, 4, 3], cs1 := [0x81#8], cs2 := [0x83#8] }
def il : Layout :=
  { L := 6, B := 3, K := 7, remapEn := true, remap := [0, 3, 1, 4, 2, 5], cs1 := [0x81#8], cs2 := [0x82#8] }
def tb : Layout :=
  { L := 4, B := 2, K := 7, remapEn := false, remap := [], cs1 := [0x81#8, 0x82#8], cs2 := [0x81#8, 0x83#8] }

/-- The state after reset with a Layout and the receiver's defaults. -/
def base (layout : Layout) : State :=
  State.resetWith { layout := layout, rx := RxConfig.default layout .clamp }

/-- The same with a valid frame. -/
def framed (layout : Layout) (f : List Byte) : State := { base layout with fb := f, fbv := true }

def frameRev : List Byte := [0x11#8, 0x22#8, 0x00#8, 0x55#8, 0x44#8, 0x33#8]

/-- A TX that waits in its first segment. -/
def waitingTx : State :=
  { framed rev frameRev with busy := true, txs := { active := true, seg := 0, idx := 1 }, writes := [[0x81#8]] }

/-- A receiver that awaits column bytes. -/
def rxAt (band : Band) (col : Nat) (g0 g1 : List Byte) : Rx :=
  { st := .awaitingColumnByte, acc := [], band := band, col := col, grid := { band0 := g0, band1 := g1 } }

/-- Receiver parameters with the clamp. -/
def rxOf (width : Nat) (g0 g1 : List Byte) : RxConfig :=
  { threshold := 127, width := width, overflow := .clamp, initialGrid := { band0 := g0, band1 := g1 } }

/-- The outcome is this next state. -/
def nextIs (o : Host.Outcome State Fault Refusal) (t : State) : Bool :=
  match o with
  | .next s => decide (s = t)
  | .fault _ => false
  | .refused _ => false

theorem eq_of_nextIs {o : Host.Outcome State Fault Refusal} {t : State} (h : nextIs o t = true) : o = .next t := by
  cases o <;> simp_all [nextIs]

/-! ### Well-formedness: an ill-formed term for each check -/

theorem test_wf_pack_too_long : ¬(Instr.pack (List.replicate (nMax + 1) 0#8)).WellFormed := by
  simp [Instr.wellFormed]

theorem test_wf_packd_top_too_long : ¬(Instr.packd (List.replicate (nMax + 1) 0#8) []).WellFormed := by
  simp [Instr.wellFormed]

theorem test_wf_packd_bottom_too_long : ¬(Instr.packd [] (List.replicate (nMax + 1) 0#8)).WellFormed := by
  simp [Instr.wellFormed]

theorem test_layouts_well_formed :
    LayoutWF Layout.s1 ∧ LayoutWF row ∧ LayoutWF k5 ∧ LayoutWF k1 ∧ LayoutWF b0 ∧ LayoutWF rot ∧ LayoutWF rev ∧
    LayoutWF il ∧ LayoutWF tb := by decide

/-- R24, R25, R26: L = 0, L = 65536, B > L, K = 0, K = 8. -/
theorem test_layout_bounds_refused :
    ¬LayoutWF (plain 0 0 7) ∧ ¬LayoutWF (plain 65536 3 7) ∧ ¬LayoutWF (plain 4 5 7) ∧ ¬LayoutWF (plain 4 2 0) ∧
    ¬LayoutWF (plain 4 2 8) := by decide

/-- A8: `i div 2` on `L = 4` is no bijection (R27). -/
theorem test_layout_remap_refused :
    ¬LayoutWF { plain 4 2 7 with remapEn := true, remap := [0, 0, 1, 1] } := by decide

/-- R28, R29: an empty sequence, one of three bytes, one with a byte outside the control class. -/
theorem test_layout_control_bytes_refused :
    ¬LayoutWF { plain 4 2 7 with cs1 := [] } ∧
    ¬LayoutWF { plain 4 2 7 with cs2 := [0x81#8, 0x82#8, 0x83#8] } ∧
    ¬LayoutWF { plain 4 2 7 with cs1 := [0x7F#8] } := by decide

/-- R30 (b): equal sequences, and one that starts the other, are refused when `B < L` and allowed when `B = L`. -/
theorem test_layout_control_pair_refused :
    ¬LayoutWF { plain 4 2 7 with cs2 := [0x81#8] } ∧
    ¬LayoutWF { plain 4 2 7 with cs2 := [0x81#8, 0x82#8] } ∧
    LayoutWF { plain 4 4 7 with cs2 := [0x81#8] } := by decide

/-- R160, R161: width 0, a grid of another width, a cell outside the mask. -/
theorem test_receiver_refused :
    ¬ReceiverWF { layout := b0, rx := rxOf 0 [] [] } ∧
    ¬ReceiverWF { layout := b0, rx := rxOf 3 (zeros 2) (zeros 3) } ∧
    ¬ReceiverWF { layout := k5, rx := rxOf 1 [0x20#8] [0x00#8] } ∧
    ReceiverWF (base k5).params := by decide

/-! ### Decoding: words written out from the encodings -/

/-- B8, R73: `000000 00`, `n = 2` low byte first, two column bytes. -/
theorem test_decode_pack :
    decodeCommand [0b00000000#8, 0b00000010#8, 0b00000000#8, 0x7F#8, 0xFF#8] = .done (.pack [0x7F#8, 0xFF#8]) [] := by
  decide

/-- B8, R74. -/
theorem test_decode_packd :
    decodeCommand [0b00000001#8, 0x02#8, 0x00#8, 0x11#8, 0x22#8, 0x04#8, 0x00#8, 0x33#8, 0x44#8, 0x55#8, 0x66#8] =
      .done (.packd [0x11#8, 0x22#8] [0x33#8, 0x44#8, 0x55#8, 0x66#8]) [] := by decide

/-- R75. -/
theorem test_decode_neg : decodeCommand [0b00000010#8, 0x03#8] = .done .neg [0x03#8] := by decide
theorem test_decode_tx : decodeCommand [0b00000011#8] = .done .tx [] := by decide

/-- R54, R77: `2C 01` is 300. -/
theorem test_length_low_byte_first : lengthOf 0x2C#8 0x01#8 = 300 ∧ encodeLength 300 = [0x2C#8, 0x01#8] := by decide

/-- R78: reserved opcodes, the first and the last, and a wire control value. -/
theorem test_decode_reserved :
    decodeCommand [0x04#8, 0x03#8] = .illegal 0x04#8 [0x03#8] ∧ decodeCommand [0xFF#8] = .illegal 0xFF#8 [] ∧
    decodeCommand [0x83#8] = .illegal 0x83#8 [] := by decide

/-- R76: the six codes in order, and no other. -/
theorem test_decode_responses :
    [0x00#8, 0x01#8, 0x02#8, 0x03#8, 0x04#8, 0x05#8, 0x06#8, 0xFF#8].map decodeResponse =
      [some .rspOk, some .rspTeDisconnected, some .rspTeTimeout, some .rspTeWriteRejected, some .rspIllegalCmd,
       some .rspFbInvalid, none, none] := by decide

/-- R81: `0 p6 .. p0`. -/
theorem test_decode_pix :
    decodeWire 0b01010101#8 = .pix 0b1010101#7 ∧ decodeWire 0b01111111#8 = .pix 0b1111111#7 := by decide
/-- R82: `1 c6 .. c0`; 0x80 is in the control class. -/
theorem test_decode_ctl :
    decodeWire 0b10000011#8 = .ctl 0b0000011#7 ∧ decodeWire 0b10000000#8 = .ctl 0b0000000#7 := by decide

/-- Words of the opcode table (log entry 18). -/
theorem test_table_words :
    [0x00, 0x01, 0x02, 0x03, 0x04, 0x05, 0x55, 0x81].map (decodeTableWord 8) =
      [some (.pack []), some (.packd [] []), some .neg, some .tx, some .rspIllegalCmd, some .rspFbInvalid,
       some (.pix 0x55#7), some (.ctl 0x01#7)] := by decide

/-- `withFetchWord` places the word where the next step runs it, as the first instruction after reset. -/
theorem test_fetch_word_commands :
    nextIs (step (State.reset.withFetchWord 8 0x00))
      { State.reset with fb := zeros 10, fbv := true, rspOut := [0x00#8] } ∧
    nextIs (step (State.reset.withFetchWord 8 0x03))
      { State.reset with faults := 0b10000#5, rspOut := [0x05#8] } ∧
    nextIs (step (State.reset.withFetchWord 8 0x04))
      { State.reset with faults := 0b01000#5, halt := true, rspOut := [0x04#8] } := by decide

theorem test_fetch_word_wire :
    nextIs (step (State.reset.withFetchWord 8 0x81))
      { State.reset with
        sink := [0x81#8], rxSeen := 1
        rx := .running (rxAt .band0 0 (zeros 5) (zeros 5)) } := by decide

/-! ### PACK and PACKD (B2, B3) -/

/-- Row 6, the direction of the remap. -/
theorem test_pack_rot :
    nextIs (exec (.pack [0x01#8, 0x02#8, 0x04#8, 0x08#8, 0x10#8, 0x20#8]) (base rot))
      { base rot with
        fb := [0x20#8, 0x00#8, 0x00#8, 0x01#8, 0x02#8, 0x04#8, 0x08#8, 0x10#8], fbv := true
        rspOut := [0x00#8] } := by decide

/-- Rows 4 and 5, masking and truncation. -/
theorem test_pack_masks :
    pack k5 [0xFF#8, 0x3F#8, 0x80#8, 0x15#8, 0x01#8, 0x02#8] = [0x1F#8, 0x1F#8, 0x00#8, 0x15#8] ∧
    pack k1 [0xFF#8, 0x02#8, 0x01#8] = [0x01#8, 0x00#8, 0x01#8] := by decide

/-- Rows 1 and 2. -/
theorem test_packd_rev :
    nextIs (exec (.packd [0x11#8, 0x22#8] [0x33#8, 0x44#8, 0x55#8, 0x66#8]) (base rev))
      { base rev with fb := frameRev, fbv := true, rspOut := [0x00#8] } ∧
    packDual rev [0xFF#8, 0x80#8, 0x41#8, 0x22#8] [0x33#8] =
      [0x7F#8, 0x00#8, 0x41#8, 0x00#8, 0x00#8, 0x33#8] := by decide

/-- Row 6, not region-preserving. -/
theorem test_packd_rot :
    packDual rot [0x11#8, 0x12#8, 0x13#8, 0x14#8] [0x21#8, 0x22#8, 0x23#8, 0x24#8] =
      [0x22#8, 0x23#8, 0x24#8, 0x11#8, 0x12#8, 0x13#8, 0x14#8, 0x21#8] := by decide

/-! ### NEG (B4) -/

theorem test_neg_rot :
    nextIs (exec .neg (framed rot [0x20#8, 0x00#8, 0x00#8, 0x01#8, 0x02#8, 0x04#8, 0x08#8, 0x10#8]))
      { base rot with
        fb := [0x5F#8, 0x7F#8, 0x7F#8, 0x7E#8, 0x7D#8, 0x7B#8, 0x77#8, 0x6F#8], fbv := true
        rspOut := [0x00#8] } := by decide

theorem test_neg_masks :
    negative k5 [0x1F#8, 0x1F#8, 0x00#8, 0x15#8] = [0x00#8, 0x00#8, 0x1F#8, 0x0A#8] ∧
    negative (plain 1 1 7) [0xFF#8] = [0x00#8] := by decide

/-! ### TX (B5) -/

theorem test_tx_rev :
    nextIs (exec .tx { framed rev frameRev with answers := [.ok, .ok, .ok, .ok] })
      { framed rev frameRev with
        rspOut := [0x00#8]
        writes := [[0x81#8], [0x11#8, 0x22#8, 0x00#8], [0x83#8], [0x55#8, 0x44#8, 0x33#8]]
        sink := [0x81#8, 0x11#8, 0x22#8, 0x00#8, 0x83#8, 0x55#8, 0x44#8, 0x33#8] } := by decide

/-- The second write times out after one byte; and the streams of ΛB0, ΛTB and ΛK5. -/
theorem test_tx_failure_and_streams :
    nextIs (exec .tx { framed rev frameRev with answers := [.ok, .fail .timeout 1, .ok] })
      { framed rev frameRev with
        rspOut := [0x02#8], faults := 0b00010#5, answers := [.ok]
        writes := [[0x81#8], [0x11#8, 0x22#8, 0x00#8]], sink := [0x81#8, 0x11#8] } ∧
    segs b0 [0x01#8, 0x02#8, 0x03#8] = [[0x81#8], [0x82#8], [0x01#8, 0x02#8, 0x03#8]] ∧
    segs tb [0x55#8, 0x2A#8, 0x7F#8, 0x00#8] =
      [[0x81#8, 0x82#8], [0x55#8, 0x2A#8], [0x81#8, 0x83#8], [0x7F#8, 0x00#8]] ∧
    segs k5 [0x1F#8, 0x1F#8, 0x00#8, 0x15#8] = [[0x81#8], [0x1F#8, 0x1F#8, 0x00#8, 0x15#8]] := by decide

/-! ### Responses (R76, R184) -/

theorem test_responses :
    nextIs (exec .rspTeDisconnected (base b0))
      { base b0 with faults := 0b00001#5, rspOut := [0x01#8] } ∧
    nextIs (exec .rspTeWriteRejected (base b0))
      { base b0 with faults := 0b00100#5, rspOut := [0x03#8] } ∧
    nextIs (exec .rspTeTimeout (base b0)) { base b0 with faults := 0b00010#5, rspOut := [0x02#8] } ∧
    nextIs (exec .rspOk (base b0)) { base b0 with rspOut := [0x00#8] } ∧
    nextIs (exec .rspFbInvalid (base b0)) { base b0 with faults := 0b10000#5, rspOut := [0x05#8] } ∧
    nextIs (exec .rspIllegalCmd (base b0))
      { base b0 with faults := 0b01000#5, halt := true, rspOut := [0x04#8] } := by
  decide

/-! ### PIX and CTL (B7) -/

/-- Rows 10, 11 and 5: two-byte sequences. -/
theorem test_receiver_two_byte :
    rxRun (base tb).params (base tb).rx [0x81#8, 0x55#8] = .undefined ∧
    rxRun (base tb).params (base tb).rx [0x81#8, 0x81#8] = .undefined ∧
    rxRun (base tb).params (base tb).rx [0x81#8, 0x82#8, 0x55#8, 0x2A#8, 0x81#8, 0x83#8, 0x7F#8, 0x00#8] =
      .running (rxAt .band1 1 [0x55#8, 0x2A#8] [0x7F#8, 0x00#8]) := by decide

/-- The last two rows, on three columns: clamp and wrap. -/
theorem test_receiver_overflow :
    rxRun (base b0).params (.running (rxAt .band0 0 (zeros 3) (zeros 3))) [0x01#8, 0x02#8, 0x03#8, 0x04#8] =
      .running (rxAt .band0 2 [0x01#8, 0x02#8, 0x04#8] (zeros 3)) ∧
    rxRun { layout := b0, rx := RxConfig.default b0 .wrap } (.running (rxAt .band0 0 (zeros 3) (zeros 3))) [0x01#8, 0x02#8, 0x03#8, 0x04#8] =
      .running (rxAt .band0 1 [0x04#8, 0x02#8, 0x03#8] (zeros 3)) := by decide

/-- Rows 7, 8, 9: bytes without a meaning leave the receiver undefined. -/
theorem test_receiver_undefined :
    nextIs (exec (.pix 0x7F#7) (base b0))
      { base b0 with rx := .undefined } ∧
    nextIs (exec (.ctl 0x05#7) (base b0))
      { base b0 with rx := .undefined } ∧
    nextIs (exec (.ctl 0x00#7) (base b0))
      { base b0 with rx := .undefined } := by decide

/-! ### The collaborators (B1, B6) -/

def t0 : GlyphTable :=
  { glyphs := [('I', [0x7F#8]), ('H', [0x7F#8, 0x08#8, 0x08#8, 0x08#8, 0x7F#8]), ('L', [0x7F#8, 0x40#8, 0x00#8])]
    space := [0x00#8], fallback := [0x20#8, 0x4F#8, 0x48#8, 0x30#8] }

theorem test_glyphs :
    lookup t0 '€' = [0x20#8, 0x4F#8, 0x48#8, 0x30#8] ∧ encodeString t0 [0x00#8] 1 [] = [] ∧
    encodeString t0 [0x00#8] 3 ['I'] = [0x7F#8] ∧
    encodeString t0 [0x00#8] 2 ['H', 'I'] = [0x7F#8, 0x08#8, 0x08#8, 0x08#8, 0x7F#8, 0x00#8, 0x00#8, 0x7F#8] ∧
    encodeString t0 [0x00#8] 1 ['L', 'I'] = [0x7F#8, 0x40#8, 0x00#8, 0x00#8, 0x7F#8] := by decide

/-- The (w, before, after) triples for W = 10, and the text wider than W. -/
theorem test_centering :
    [7, 6, 1, 0, 10, 12].map (fun w => (centerPadding 10 w, centerAfter 10 w)) =
      [(1, 2), (2, 2), (4, 5), (5, 5), (0, 0), (0, 0)] := by decide

theorem test_scroll :
    let w := scrollWindows row 10 (encodeString t0 [0x00#8] 1 ['H', 'I'])
    w.length = 18 ∧
    w[8]? = some [0x00#8, 0x00#8, 0x7F#8, 0x08#8, 0x08#8, 0x08#8, 0x7F#8, 0x00#8, 0x7F#8, 0x00#8] := by decide

/-- A double-height font: the top band shows `t0`, the bottom band its own entries. -/
def fonts0 : Fonts :=
  { single := t0
    double := { top := t0, bottom := { glyphs := [('I', [0x01#8])], space := [0x00#8], fallback := [0x55#8] } } }

/-- B6, `CENTER "HI"` on ΛROW; and R86, R105, R106: string literals as the two operands of a PACKD. -/
theorem test_expand_literals :
    expand fonts0 row (.center none (.text ['H', 'I'])) =
      some [.pack [0x00#8, 0x7F#8, 0x08#8, 0x08#8, 0x08#8, 0x7F#8, 0x00#8, 0x7F#8]] ∧
    expand fonts0 rev (.packd (.text ['I', 'I']) (.text ['I', '€'])) =
      some [.packd [0x7F#8, 0x00#8, 0x7F#8] [0x01#8, 0x00#8, 0x55#8]] ∧
    hostPackDouble fonts0.double [0x00#8] [] 1 ['I', 'I'] = .packd [0x7F#8, 0x00#8, 0x7F#8] [0x01#8, 0x01#8] ∧
    ((expand fonts0 row (.scroll none (.text ['H', 'I']))).map List.length) = some 36 := by decide

/-- R146: the range of W, and no default without a row-1 region (log entries 31, 32). -/
theorem test_display_width :
    displayWidth row none = some 10 ∧ displayWidth rev none = some 3 ∧ displayWidth b0 none = none ∧
    displayWidth b0 (some 3) = some 3 ∧ displayWidth b0 (some 4) = none ∧ displayWidth b0 (some 0) = none := by decide

/-- R35, R152: a halted block and one with a TX in progress take no command. -/
theorem test_hostRun_waits :
    nextIs (hostRun [.pack [0x7F#8]] { base rev with halt := true }) { base rev with halt := true } ∧
    nextIs (hostRun [.pack [0x7F#8]] waitingTx) waitingTx := by decide

/-- R169: rows of the 2D grid, 14 for ΛREV and 5 for ΛK5. -/
theorem test_grid_rows :
    let g := { band0 := [0x40#8], band1 := [0x01#8] }
    gridRows rev = 14 ∧ gridRows k5 = 5 ∧ gridPixel rev g 6 0 = some true ∧ gridPixel rev g 7 0 = some true ∧
    gridPixel rev g 14 0 = none ∧ gridPixel k5 g 5 0 = none ∧ pixelRow rev .band1 6 = some 13 ∧
    pixelRow k5 .band1 0 = none := by decide

/-! ### Witnesses: the hypotheses of the obligations are met

One theorem for each obligation with hypotheses, named after it; a clause at a boundary of its range has its value
here. -/

/-- `rev` with a packed frame, ready for a command, and a host that has sent the bytes. -/
def sent (bytes : List Byte) : State := { framed rev frameRev with cmdIn := bytes }

/-- A receiver state of `rev` over a blank grid. -/
def rx3 (band : Band) (col : Nat) : Rx := rxAt band col (zeros 3) (zeros 3)

/-- `rev` with a running receiver. -/
def shownBy (r : Rx) : State := { base rev with rx := .running r }

theorem sent_ready (bytes : List Byte) : EncoderReady (sent bytes) :=
  ⟨show LayoutWF rev by decide, rfl, rfl, rfl, rfl, rfl⟩

theorem witness_CommandEncodingRoundTrip :
    (Instr.pack (List.replicate nMax 0xFF#8)).WellFormed ∧ (Instr.pack (List.replicate nMax 0xFF#8)).space = .cmd ∧
    (Instr.packd [] []).WellFormed ∧ (Instr.packd [] []).space = .cmd ∧ Instr.tx.space = .cmd := by
  simp [Instr.WellFormed, Instr.wellFormed, Instr.space]

theorem witness_ResponseAndWireRoundTrip :
    Instr.rspFbInvalid.space ≠ .cmd ∧ (Instr.ctl 0x7F#7).space ≠ .cmd ∧
    decodeResponse 0x00#8 = some .rspOk ∧ decodeResponse 0x05#8 = some .rspFbInvalid := by decide

theorem witness_DecoderIgnoresArrivalCuts :
    feed .boundary [] = .more .boundary ∧ feed .boundary [0x00#8, 0x02#8] = .more (.packLenHi 0x02#8) ∧
    feed (.packCols 1 [0x11#8]) [0x22#8, 0x03#8] = .done (.pack [0x11#8, 0x22#8]) [0x03#8] ∧
    feed .boundary [0x04#8, 0x03#8] = .illegal 0x04#8 [0x03#8] := by decide

theorem witness_ReservedOpcodesRejected : 4 ≤ (0x04#8).toNat ∧ 4 ≤ (0xFF#8).toNat := by decide

/-- Cut before the first byte and before the last. -/
theorem witness_IncompletePacketNeverCompletes :
    (Instr.pack [0x7F#8]).WellFormed ∧ (Instr.pack [0x7F#8]).space = .cmd ∧
    encode (.pack [0x7F#8]) = [] ++ [0x00#8, 0x01#8, 0x00#8, 0x7F#8] ∧
    encode (.pack [0x7F#8]) = [0x00#8, 0x01#8, 0x00#8] ++ [0x7F#8] ∧ [0x7F#8] ≠ [] := by decide

theorem witness_PacketLayout : 0 ≤ 65535 ∧ 65535 ≤ 65535 ∧ encodeLength 65535 = [0xFF#8, 0xFF#8] := by decide

theorem witness_RemapIsBijection :
    LayoutWF rot ∧ 0 < rot.L ∧ 7 < rot.L ∧ remapOf rot 0 = remapOf rot 0 ∧ remapOf rot 7 = 2 := by decide

/-- The last stored column and the first blank one. -/
theorem witness_PackCells :
    let cols := [0x01#8, 0x02#8, 0x04#8, 0x08#8, 0x10#8, 0x20#8]
    LayoutWF rot ∧ 5 < min cols.length rot.L ∧ cols[5]? = some 0x20#8 ∧ min cols.length rot.L ≤ 6 ∧ 6 < rot.L := by
  decide

theorem witness_PackProperties :
    LayoutWF rot ∧ [0x01#8].length < rot.L ∧ [0x01#8].length ≤ 1 ∧ 1 < rot.L ∧ 0x01#8 ∈ pack rot [0x01#8] ∧
    LayoutWF k5 ∧ k5.remapEn = false := by decide

/-- In each part the last stored column and the first blank one. -/
theorem witness_PackDualCells :
    LayoutWF rev ∧ 1 < min [0x11#8, 0x22#8].length rev.B ∧ [0x11#8, 0x22#8][1]? = some 0x22#8 ∧
    min [0x11#8, 0x22#8].length rev.B ≤ 2 ∧ 2 < rev.B ∧
    0 < min [0x33#8].length (rev.L - rev.B) ∧ [0x33#8][0]? = some 0x33#8 ∧
    min [0x33#8].length (rev.L - rev.B) ≤ 1 ∧ 1 < rev.L - rev.B := by decide

theorem witness_PackDualParts : LayoutWF row ∧ row.B = row.L ∧ LayoutWF b0 ∧ b0.B = 0 := by decide

/-- `rev` keeps its regions; `rot` does not, so the hypothesis rules something out. -/
theorem witness_RegionPreservingDual :
    LayoutWF rev ∧ RegionPreserving rev ∧ 2 < rev.B ∧ rev.B ≤ 3 ∧ 5 < rev.L ∧ ¬RegionPreserving rot ∧
    tb.remapEn = false := by
  unfold RegionPreserving; decide

theorem witness_PackCommands : LayoutWF (base rot).params.layout ∧ LayoutWF State.reset.params.layout := by decide

/-- The last pixel bit and the first bit above the mask. -/
theorem witness_NegativeCells :
    LayoutWF k5 ∧ [0x1F#8, 0xFF#8, 0x00#8, 0x15#8].length = k5.L ∧
    [0x1F#8, 0xFF#8, 0x00#8, 0x15#8][1]? = some 0xFF#8 ∧ 4 < k5.K ∧ k5.K ≤ 5 := by decide

theorem witness_MaskArithmetic :
    LayoutWF k5 ∧ (0x1F#8).toNat ≤ (mask k5).toNat ∧ ¬(0x20#8).toNat ≤ (mask k5).toNat := by decide

theorem witness_NegativeInvolution :
    IsFrame rev frameRev ∧ LayoutWF (framed rev frameRev).params.layout ∧ (framed rev frameRev).fbv = true ∧
    IsFrame (framed rev frameRev).params.layout (framed rev frameRev).fb := by decide

theorem witness_NegCommand :
    LayoutWF (framed rev frameRev).params.layout ∧ (framed rev frameRev).fbv = true := by decide

theorem witness_FbInvalidRaised :
    (Instr.neg = .neg ∨ Instr.neg = .tx) ∧ (Instr.tx = .neg ∨ Instr.tx = .tx) ∧
    LayoutWF (base rev).params.layout ∧ (base rev).fbv = false := by decide

theorem witness_SegmentList :
    LayoutWF rev ∧ frameRev.length = rev.L ∧ 0 < rev.B ∧ rev.B < rev.L ∧
    LayoutWF k5 ∧ (zeros 4).length = k5.L ∧ k5.B = k5.L ∧ LayoutWF b0 ∧ (zeros 3).length = b0.L ∧ b0.B = 0 := by
  decide

theorem witness_StreamProperties :
    LayoutWF rev ∧ IsFrame rev frameRev ∧ (txStream rev frameRev)[0]? = some 0x81#8 ∧
    (txStream rev frameRev)[7]? = some 0x33#8 ∧
    frameRev = pack rev [0x11#8, 0x22#8, 0x00#8, 0x33#8, 0x44#8, 0x55#8] ∧ 5 < rev.L ∧
    [0x11#8, 0x22#8, 0x00#8, 0x33#8, 0x44#8, 0x55#8][5]? = some 0x55#8 := by decide

theorem witness_TransmitCompletes :
    let s := { framed rev frameRev with answers := [.ok, .ok, .ok, .ok, .fail .timeout 0] }
    LayoutWF s.params.layout ∧ s.fbv = true ∧
    s.answers = List.replicate (stateSegs s).length .ok ++ [.fail .timeout 0] := by decide

/-- Each kind; the first segment with nothing delivered, and the last with all of it. -/
theorem witness_TransmitFailure :
    let kinds := [(FailKind.disconnected, 0b00001#5, 0x01#8), (FailKind.timeout, 0b00010#5, 0x02#8),
      (FailKind.writeRejected, 0b00100#5, 0x03#8)]
    let s := { framed rev frameRev with answers := [.fail .disconnected 0] }
    let t := { framed rev frameRev with answers := [.ok, .ok, .ok, .fail .writeRejected 3, .ok] }
    (FailKind.disconnected, 0b00001#5, 0x01#8) ∈ kinds ∧ (FailKind.timeout, 0b00010#5, 0x02#8) ∈ kinds ∧
    (FailKind.writeRejected, 0b00100#5, 0x03#8) ∈ kinds ∧
    LayoutWF s.params.layout ∧ s.fbv = true ∧ (segs s.params.layout s.fb)[0]? = some [0x81#8] ∧
    s.answers = List.replicate 0 .ok ++ .fail .disconnected 0 :: [] ∧
    LayoutWF t.params.layout ∧ t.fbv = true ∧ (segs t.params.layout t.fb)[3]? = some [0x55#8, 0x44#8, 0x33#8] ∧
    t.answers = List.replicate 3 .ok ++ .fail .writeRejected 3 :: [.ok] := by decide

theorem witness_TransmitWaits :
    let s := framed rev frameRev
    let t := { framed rev frameRev with answers := [.ok, .ok, .ok] }
    LayoutWF s.params.layout ∧ s.fbv = true ∧ (segs s.params.layout s.fb)[0]? = some [0x81#8] ∧
    s.answers = List.replicate 0 .ok ∧
    LayoutWF t.params.layout ∧ t.fbv = true ∧ (segs t.params.layout t.fb)[3]? = some [0x55#8, 0x44#8, 0x33#8] ∧
    t.answers = List.replicate 3 .ok := by decide

theorem witness_SequencerStepsAgreeWithLoop :
    let s := startTx { framed rev frameRev with answers := [.ok] }
    let t := startTx { framed rev frameRev with answers := [.fail .timeout 1] }
    let u := { startTx (framed rev frameRev) with txs := { active := true, seg := 4, idx := 0 } }
    (u.txs.active = true ∧ (stateSegs u)[u.txs.seg]? = none) ∧
    (s.txs.active = true ∧ s.txs.idx = 0 ∧ (stateSegs s)[s.txs.seg]? = some [0x81#8] ∧ s.answers = .ok :: []) ∧
    (t.txs.active = true ∧ t.txs.idx = 0 ∧ (stateSegs t)[t.txs.seg]? = some [0x81#8] ∧
      t.answers = .fail .timeout 1 :: []) ∧
    LayoutWF (framed rev frameRev).params.layout ∧ (framed rev frameRev).fbv = true := by decide

theorem witness_WaitingTransmitResumes :
    LayoutWF (framed rev frameRev).params.layout ∧ (framed rev frameRev).fbv = true ∧
    exec .tx { framed rev frameRev with answers := [] } = .next waitingTx ∧ waitingTx.txs.active = true :=
  ⟨by decide, rfl, eq_of_nextIs (by decide), rfl⟩

theorem witness_FlashTwiceRestores :
    let s := { framed rev frameRev with answers := List.replicate 8 .ok }
    acceptsCommand s = true ∧ LayoutWF s.params.layout ∧ s.fbv = true ∧ IsFrame s.params.layout s.fb ∧
    s.answers = List.replicate (2 * (stateSegs s).length) .ok ∧
    acceptsCommand { s with halt := true } = false ∧ acceptsCommand waitingTx = false ∧
    acceptsCommand { s with dec := .packLenLo } = false := by decide

/-- A pixel byte, the largest one, in the first and the last column. -/
theorem witness_PixelByteShown :
    encode (.pix 0x7F#7) = [0x7F#8] ∧ LayoutWF (base rev).params.layout ∧ ReceiverWF (base rev).params ∧
    (shownBy (rx3 .band0 0)).rx = .running (rx3 .band0 0) ∧ (shownBy (rx3 .band1 2)).rx = .running (rx3 .band1 2) ∧
    (rx3 .band0 0).st = .awaitingColumnByte ∧ (rx3 .band0 0).acc = [] ∧
    (rx3 .band1 2).st = .awaitingColumnByte ∧ (rx3 .band1 2).acc = [] ∧
    (0x7F#8).toNat ≤ (base rev).params.rx.threshold := by decide

/-- With `B = L`: a beginning of CS2, and a completed CS2, which is no CS2 there. -/
theorem witness_ControlByteMovesCursor_single_band :
    let layout := { plain 4 4 7 with cs2 := [0x82#8, 0x83#8] }
    let r := { rx3 .band0 0 with acc := [0x82#8] }
    encode (.ctl 0x02#7) = [0x82#8] ∧ encode (.ctl 0x03#7) = [0x83#8] ∧ LayoutWF layout ∧
    ReceiverWF (base layout).params ∧ ¬layout.B < layout.L ∧ (base layout).params.rx.threshold < (0x82#8).toNat ∧
    ([] ++ [0x82#8] ≠ layout.cs1 ∧ [] ++ [0x82#8] ≠ layout.cs2 ∧ [0x82#8] <+: layout.cs2) ∧
    r.acc ++ [0x83#8] ≠ layout.cs1 ∧ r.acc ++ [0x83#8] = layout.cs2 ∧ ¬r.acc ++ [0x83#8] <+: layout.cs1 := by decide

/-- The four clauses over `tb`, the control bytes 0x81 0x82 and 0x81 0x83: CS1 is completed, CS2 is completed, a
sequence is begun, 0x80 is unrecognised. -/
theorem witness_ControlByteMovesCursor :
    let r := { rx3 .band0 0 with acc := [0x81#8] }
    encode (.ctl 0x02#7) = [0x82#8] ∧ encode (.ctl 0x03#7) = [0x83#8] ∧ encode (.ctl 0x01#7) = [0x81#8] ∧
    encode (.ctl 0x00#7) = [0x80#8] ∧ LayoutWF (base tb).params.layout ∧ ReceiverWF (base tb).params ∧
    { base tb with rx := .running r }.rx = .running r ∧ (base tb).params.rx.threshold < (0x80#8).toNat ∧
    r.acc ++ [0x82#8] = tb.cs1 ∧
    (r.acc ++ [0x83#8] ≠ tb.cs1 ∧ tb.B < tb.L ∧ r.acc ++ [0x83#8] = tb.cs2) ∧
    ([] ++ [0x81#8] ≠ tb.cs1 ∧ [] ++ [0x81#8] ≠ tb.cs2 ∧ [0x81#8] <+: tb.cs1) ∧
    (r.acc ++ [0x80#8] ≠ tb.cs1 ∧ r.acc ++ [0x80#8] ≠ tb.cs2 ∧ ¬r.acc ++ [0x80#8] <+: tb.cs1 ∧
      ¬r.acc ++ [0x80#8] <+: tb.cs2) := by decide

/-- Before any control sequence, inside one, and after an undefined input. -/
theorem witness_UndefinedReceiverInputs :
    let begun := { rx3 .band0 0 with acc := [0x81#8] }
    let initial := { rx3 .band0 0 with st := .awaitingRowOrColumnControl }
    encode (.pix 0x00#7) = [0x00#8] ∧ LayoutWF (base tb).params.layout ∧ ReceiverWF (base tb).params ∧
    { base tb with rx := .running begun }.rx = .running begun ∧ begun.acc ≠ [] ∧
    { base tb with rx := .running initial }.rx = .running initial ∧ initial.st = .awaitingRowOrColumnControl ∧
    (0x00#8).toNat ≤ (base tb).params.rx.threshold ∧ { base tb with rx := .undefined }.rx = .undefined := by decide

theorem witness_RoundTripShowsFrame :
    LayoutWF rev ∧ (base rev).params.rx.threshold = 127 ∧
    max rev.B (rev.L - rev.B) ≤ (base rev).params.rx.width ∧
    (rx3 .band1 2).grid.band0.length = (base rev).params.rx.width ∧
    (rx3 .band1 2).grid.band1.length = (base rev).params.rx.width ∧ (rx3 .band1 2).acc = [] := by decide

/-- `PACK 0x11` and TX on the command port of `rev`, RX as the Transport. -/
theorem witness_RoundTripShowsFrame_machine :
    let s := { sent (encode (.pack [0x11#8]) ++ encode .tx) with
      rx := .running (rx3 .band1 2), answers := [.ok, .ok, .ok, .ok] }
    EncoderReady s ∧ s.dec = .boundary ∧ s.rxSeen = s.sink.length ∧ ReceiverWF s.params ∧
    s.params.rx.threshold = 127 ∧
    max s.params.layout.B (s.params.layout.L - s.params.layout.B) ≤ s.params.rx.width ∧
    s.rx = .running (rx3 .band1 2) ∧ (rx3 .band1 2).grid.band0.length = s.params.rx.width ∧
    (rx3 .band1 2).grid.band1.length = s.params.rx.width ∧ (rx3 .band1 2).acc = [] ∧
    (Instr.pack [0x11#8]).WellFormed ∧ s.cmdIn = encode (.pack [0x11#8]) ++ encode .tx ∧
    s.answers = (rxWrites s.params s.rx (segs s.params.layout (pack s.params.layout [0x11#8]))).2 :=
  ⟨⟨show LayoutWF rev by decide, rfl, rfl, rfl, rfl, rfl⟩, by decide⟩

/-- The last column of band 0 and the first of band 1, and the first and last pixel row of a band. -/
theorem witness_LogicalColumnShown :
    LayoutWF rev ∧ 2 < rev.L ∧ frameRev[2]? = some 0x00#8 ∧ remapOf rev 2 < rev.B ∧
    5 < rev.L ∧ frameRev[5]? = some 0x33#8 ∧ rev.B ≤ remapOf rev 5 ∧ rev.B ≤ 3 ∧ rev.L - rev.B ≤ 3 ∧
    0 < rev.K ∧ 6 < rev.K ∧ gridRows rev ≤ 14 ∧ gridRows k5 ≤ 5 := by decide

theorem witness_LastFrameDeterminesGrid :
    LayoutWF rev ∧ (base rev).params.rx.threshold = 127 ∧ rev.B = rev.L - rev.B ∧
    (base rev).params.rx.width = rev.B ∧ (rx3 .band1 2).acc = [] ∧ (rx3 .band0 0).acc = [] ∧
    rxRun (base rev).params (.running (rx3 .band1 2)) (txStream rev (pack rev [0x11#8])) =
      .running (rxAt .band1 2 [0x11#8, 0x00#8, 0x00#8] (zeros 3)) ∧
    rxRun (base rev).params (.running (rx3 .band0 0)) (txStream rev (pack rev [0x11#8])) =
      .running (rxAt .band1 2 [0x11#8, 0x00#8, 0x00#8] (zeros 3)) := by decide

theorem witness_FaultEntry :
    let causes := [(Cause.teDisconnected, 0b00001#5, 0x01#8, false), (Cause.teTimeout, 0b00010#5, 0x02#8, false),
      (Cause.teWriteRejected, 0b00100#5, 0x03#8, false), (Cause.illegalCmd, 0b01000#5, 0x04#8, true),
      (Cause.fbInvalid, 0b10000#5, 0x05#8, false)]
    (Cause.teDisconnected, 0b00001#5, 0x01#8, false) ∈ causes ∧
    (Cause.illegalCmd, 0b01000#5, 0x04#8, true) ∈ causes := by decide

theorem witness_ResponseRows :
    (Instr.rspOk, 0b00000#5, 0x00#8, false) ∈ [(Instr.rspOk, 0b00000#5, 0x00#8, false),
      (Instr.rspTeDisconnected, 0b00001#5, 0x01#8, false), (Instr.rspTeTimeout, 0b00010#5, 0x02#8, false),
      (Instr.rspTeWriteRejected, 0b00100#5, 0x03#8, false), (Instr.rspIllegalCmd, 0b01000#5, 0x04#8, true),
      (Instr.rspFbInvalid, 0b10000#5, 0x05#8, false)] := by decide

theorem witness_IllegalOpcodeHalts :
    EncoderReady (sent [0x04#8, 0x03#8]) ∧ (sent [0x04#8, 0x03#8]).dec = .boundary ∧
    (sent [0x04#8, 0x03#8]).cmdIn = 0x04#8 :: [0x03#8] ∧ 4 ≤ (0x04#8).toNat := ⟨sent_ready _, rfl, rfl, by decide⟩

/-- A command that ends and a TX that waits. -/
theorem witness_OneResponsePerCommand :
    Instr.tx.space = .cmd ∧ exec .tx (framed rev frameRev) = .next waitingTx ∧
    exec .tx (base rev) = .next { base rev with faults := 0b10000#5, rspOut := [0x05#8] } :=
  ⟨rfl, eq_of_nextIs (by decide), eq_of_nextIs (by decide)⟩

theorem witness_FaultBitsSticky :
    let s := { sent [0x02#8] with faults := 0b00010#5 }
    (∃ t, step s = .next t) ∧ (s.resetPin = none ∨ s.powerUpPin = true) ∧ s.faults.getLsbD 1 = true :=
  ⟨⟨_, rfl⟩, Or.inl rfl, rfl⟩

/-- The device goes on while the block is halted. -/
theorem witness_HaltedUntilReset :
    let s := { sent [0x02#8] with halt := true, faults := 0b01000#5, sink := [0x81#8] }
    (∃ t, step s = .next t) ∧ s.halt = true ∧ s.resetPin = none :=
  ⟨⟨_, rfl⟩, rfl, rfl⟩

/-- Reset in the middle of a write, and with no TX in progress. -/
theorem witness_ResetTaken :
    let s := { waitingTx with resetPin := some 1 }
    let t := { framed rev frameRev with resetPin := some 0 }
    (LayoutWF s.params.layout ∧ s.powerUpPin = false ∧ s.resetPin = some 1 ∧ s.txs.active = true ∧
      (stateSegs s)[s.txs.seg]? = some [0x81#8]) ∧
    LayoutWF t.params.layout ∧ t.powerUpPin = false ∧ t.resetPin = some 0 ∧ t.txs.active = false := by decide

theorem witness_StepRunsDecodedInstruction :
    (EncoderReady (sent [0x02#8, 0x03#8]) ∧
      feed (sent [0x02#8, 0x03#8]).dec (sent [0x02#8, 0x03#8]).cmdIn = .done .neg [0x03#8]) ∧
    LayoutWF { base rev with sink := [0x81#8, 0x11#8], rxSeen := 1 }.params.layout ∧
    { base rev with sink := [0x81#8, 0x11#8], rxSeen := 1 }.sink[1]? = some 0x11#8 :=
  ⟨⟨sent_ready _, by decide⟩, by decide, rfl⟩

theorem witness_EncodedCommandRuns :
    EncoderReady (sent (encode (.pack [0x7F#8]) ++ [0x03#8])) ∧
    (sent (encode (.pack [0x7F#8]) ++ [0x03#8])).dec = .boundary ∧ (Instr.pack [0x7F#8]).WellFormed ∧
    (Instr.pack [0x7F#8]).space = .cmd := ⟨sent_ready _, rfl, by decide, rfl⟩

/-- Cut after the first byte and before the last. -/
theorem witness_CommandUnderrunWaits :
    EncoderReady (sent [0x00#8]) ∧ EncoderReady (sent [0x00#8, 0x01#8, 0x00#8]) ∧ (sent [0x00#8]).dec = .boundary ∧
    (Instr.pack [0x7F#8]).WellFormed ∧ (Instr.pack [0x7F#8]).space = .cmd ∧
    encode (.pack [0x7F#8]) = [0x00#8] ++ [0x01#8, 0x00#8, 0x7F#8] ∧
    encode (.pack [0x7F#8]) = [0x00#8, 0x01#8, 0x00#8] ++ [0x7F#8] :=
  ⟨sent_ready _, sent_ready _, rfl, by decide, rfl, by decide, by decide⟩

theorem witness_SilentTransportStalls :
    let s := waitingTx
    let t := { waitingTx with answers := [.ok] }
    LayoutWF s.params.layout ∧ s.powerUpPin = false ∧ s.resetPin = none ∧ nextWireByte s = none ∧ s.halt = false ∧
    s.txs.active = true ∧ s.answers = [] ∧ nextWireByte t = none ∧ t.answers ≠ [] := by decide

theorem witness_StopsOnlyWhereStuck :
    LayoutWF (base rev).params.layout ∧ ReceiverWF (base rev).params := by decide

/-- A bad Layout; a good one with a receiver of width 0. -/
theorem witness_IllFormedConfigurationRefused :
    ¬LayoutWF (base (plain 4 5 7)).params.layout ∧ Instr.neg.space ≠ .rsp ∧ (Instr.pix 0#7).space = .wire ∧
    LayoutWF (State.resetWith { layout := b0, rx := rxOf 0 [] [] }).params.layout ∧
    ¬ReceiverWF (State.resetWith { layout := b0, rx := rxOf 0 [] [] }).params := by decide

theorem witness_ConfigurationNeverChanges :
    (∃ t, exec .neg (framed rev frameRev) = .next t) ∧ ∃ t, step (sent [0x02#8]) = .next t :=
  ⟨⟨_, rfl⟩, ⟨_, rfl⟩⟩

theorem witness_SinkOnlyGrows :
    (∃ t, step { sent [0x03#8] with answers := [.ok] } = .next t) ∧ (sent [0x03#8]).powerUpPin = false :=
  ⟨⟨_, rfl⟩, rfl⟩

theorem witness_DeviceCannotInfluenceEncoder : ∃ t, step { sent [0x03#8] with answers := [.ok] } = .next t :=
  ⟨_, rfl⟩

/-! ### The invariants hold of states in the middle of a run, and the next step exists -/

theorem framed_frame : FrameInv (framed rev frameRev) := ⟨by decide, fun _ => by decide⟩

theorem witness_StepKeepsFrame : FrameInv (sent [0x02#8]) ∧ ∃ t, step (sent [0x02#8]) = .next t :=
  ⟨framed_frame, _, rfl⟩

/-- A TX in progress that is answered. -/
theorem witness_StepKeepsControlState :
    ControlInv { waitingTx with answers := [.ok] } ∧ ∃ t, step { waitingTx with answers := [.ok] } = .next t :=
  ⟨⟨by decide, by decide, by decide, fun _ => ⟨[0x81#8], by decide⟩, by decide, by decide⟩, _, rfl⟩

/-- A control byte and a pixel byte are in H; the next write is answered. -/
theorem witness_StepKeepsWireBytes :
    let s := { waitingTx with answers := [.ok], sink := [0x83#8, 0x7F#8], rxSeen := 2 }
    FrameInv s ∧ ControlInv s ∧ SinkInv s ∧ ∃ t, step s = .next t :=
  ⟨⟨by decide, fun _ => by decide⟩,
    ⟨by decide, by decide, by decide, fun _ => ⟨[0x81#8], by decide⟩, by decide, by decide⟩,
    by unfold SinkInv WireByte; decide, _, rfl⟩

/-- The device has consumed 0x81 and has a column byte to come. -/
theorem witness_StepKeepsDeviceHistory :
    let s := { base rev with sink := [0x81#8, 0x11#8], rxSeen := 1, rx := .running (rx3 .band0 0) }
    DeviceInv s ∧ ∃ t, step s = .next t :=
  ⟨⟨by decide, by decide⟩, _, rfl⟩

theorem witness_StepKeepsPortRecords :
    let s := { sent [0x03#8] with answers := [.ok], rspOut := [0x00#8, 0x05#8], writes := [[0x81#8]] }
    ResponseInv s ∧ WritesInv s ∧ ∃ t, step s = .next t :=
  ⟨by unfold ResponseInv; decide, by unfold WritesInv; decide, _, rfl⟩

/-! ### The collaborators -/

theorem witness_LookupNeverFails :
    'H' ≠ ' ' ∧ t0.glyphs.lookup 'H' = some [0x7F#8, 0x08#8, 0x08#8, 0x08#8, 0x7F#8] ∧ '€' ≠ ' ' ∧
    ∀ g ∈ t0.glyphs, g.1 ≠ '€' := by decide

theorem witness_EncodedStringLength : ['I'] ≠ [] ∧ ['L', 'I'] ≠ [] := by decide

/-- Exactly as wide as the window, empty, and one column too wide; the three kinds of Layout; the widths 1, L, 0, L + 1. -/
theorem witness_CenteringPolicy :
    10 ≤ 10 ∧ 0 ≤ 10 ∧ 10 < 11 ∧ (LayoutWF row ∧ row.B = row.L) ∧ (LayoutWF rev ∧ 0 < rev.B ∧ rev.B < rev.L) ∧
    (LayoutWF b0 ∧ b0.B = 0) ∧ (1 ≤ 1 ∧ 1 ≤ row.L) ∧ (1 ≤ 10 ∧ 10 ≤ row.L) ∧ (0 = 0 ∨ row.L < 0) ∧
    (11 = 0 ∨ row.L < 11) := by decide

/-- `P = L` with one window, and `P = L - 1` with none. -/
theorem witness_ScrollWindows :
    row.L ≤ 2 * 5 + (zeros 0).length ∧ 2 * 4 + (zeros 1).length < row.L ∧
    (scrollWindows row 5 [])[0]? = some (zeros 10) ∧ operandBytes t0 (.text []) = [] ∧ 1 ≤ 5 ∧ 5 ≤ row.L ∧
    (11 = 0 ∨ row.L < 11) := by decide

end Sys2Proof.Tests
end

section
/-! PROOFS. What the step and the instructions can do: one equation for each branch of the step, one case for each way
a next state comes about, and what each leaves alone. -/

namespace Sys2Proof.Machine

open Sys2Proof

/-! ### The branches of the step -/

/-- Outside well-formed Layouts the step has no meaning (R22). -/
theorem step_of_not_wf {s : State} (hw : ¬LayoutWF s.params.layout) : step s = .refused .illFormedLayout :=
  withLayout_of_not_wf hw _

theorem step_of_powerUp {s : State} (hw : LayoutWF s.params.layout) (hp : s.powerUpPin = true) :
    step s = .next (powerUpDevice s) := by
  simp [step, withLayout_of_wf hw, stepMachine, hp]

theorem step_of_reset {s : State} {n : Nat} (hw : LayoutWF s.params.layout) (hp : s.powerUpPin = false)
    (hr : s.resetPin = some n) : step s = .next (takeReset n s) := by
  simp [step, withLayout_of_wf hw, stepMachine, hp, hr]

theorem step_of_wireByte {s : State} {b : Byte} (hw : LayoutWF s.params.layout) (hp : s.powerUpPin = false)
    (hr : s.resetPin = none) (hb : nextWireByte s = some b) :
    step s = exec (decodeWire b) (wireByteTaken s) := by
  simp [step, withLayout_of_wf hw, stepMachine, hp, hr, stepAgents, hb]

theorem step_of_upToDate {s : State} (hw : LayoutWF s.params.layout) (hp : s.powerUpPin = false)
    (hr : s.resetPin = none) (hb : nextWireByte s = none) : step s = stepEncoder s := by
  simp [step, withLayout_of_wf hw, stepMachine, hp, hr, stepAgents, hb]

/-- A TX in progress whose write has an answer goes on (R133, R134). -/
theorem stepEncoder_of_answered {s : State} (hh : s.halt = false) (ha : s.txs.active = true)
    (hn : s.answers ≠ []) : stepEncoder s = .next (resumeTx s) := by
  simp [stepEncoder, hh, ha, hn]

/-- A ready encoder with bytes on its command port reads them (R37). -/
theorem step_of_ready {s : State} (he : EncoderReady s) (hc : s.cmdIn ≠ []) : step s = stepCommand s := by
  rw [step_of_upToDate he.layout_wf he.no_power_up he.no_reset he.device_done]
  simp [stepEncoder, he.not_halted, he.no_tx, hc]

theorem stepCommand_of_more {s : State} {pos : DecoderPos} (h : fetchCommand s = .more pos) :
    stepCommand s = .next (bytesTaken pos [] s) := by simp [stepCommand, h]

theorem stepCommand_of_done {s : State} {i : Instr} {rest : List Byte} (h : fetchCommand s = .done i rest) :
    stepCommand s = exec i (bytesTaken .boundary rest s) := by simp [stepCommand, h]

theorem stepCommand_of_illegal {s : State} {b : Byte} {rest : List Byte} (h : fetchCommand s = .illegal b rest) :
    stepCommand s = .next (raise .illegalCmd (bytesTaken .boundary rest s)) := by
  simp [stepCommand, h, exec, execRspIllegalCmd]

/-! ### The device's instruction -/

/-- Bit 7 of a wire byte and the seven bits below it make up the byte (R81, R82). -/
theorem msb_append_extract (b : Byte) : BitVec.ofBool b.msb ++ b.extractLsb' 0 7 = b := by
  have h := BitVec.cons_msb_setWidth (w := 7) b
  rw [BitVec.setWidth_eq_extractLsb' (by omega)] at h
  exact h

/-- Whatever row a wire byte decodes to, the device consumes exactly that byte (R80, R172). -/
theorem exec_decodeWire (b : Byte) (s : State) :
    exec (decodeWire b) s = withReceiver s (.next { s with rx := rxByte s.params s.rx b }) := by
  have hb := msb_append_extract b
  cases hm : b.msb with
  | false =>
    have hd : decodeWire b = .pix (b.extractLsb' 0 7) := by simp [decodeWire, hm]
    have hv : 0#1 ++ b.extractLsb' 0 7 = b := by simpa [hm] using hb
    simp only [hd, exec, execPix, hv]
  | true =>
    have hd : decodeWire b = .ctl (b.extractLsb' 0 7) := by simp [decodeWire, hm]
    have hv : 1#1 ++ b.extractLsb' 0 7 = b := by simpa [hm] using hb
    simp only [hd, exec, execCtl, hv]

/-! ### The ways a step has a next state -/

/-- The ways a step from `s` has a next state, with the state it has. -/
inductive StepCase (s : State) : State → Prop
  /-- The device powers up. -/
  | powerUp (hp : s.powerUpPin = true) : StepCase s (powerUpDevice s)
  /-- The reset input is taken. -/
  | reset (n : Nat) (hp : s.powerUpPin = false) (hr : s.resetPin = some n) : StepCase s (takeReset n s)
  /-- The device consumes the next byte of H. -/
  | device (b : Byte) (hp : s.powerUpPin = false) (hr : s.resetPin = none) (hb : nextWireByte s = some b)
      (hx : ReceiverWF s.params) :
      StepCase s { s with rxSeen := s.rxSeen + 1, rx := rxByte s.params s.rx b }
  /-- A TX in progress goes on. -/
  | resume (hp : s.powerUpPin = false) (hr : s.resetPin = none) (hb : nextWireByte s = none) (hh : s.halt = false)
      (ha : s.txs.active = true) (hn : s.answers ≠ []) : StepCase s (resumeTx s)
  /-- The command bytes leave the packet incomplete. -/
  | keep (he : EncoderReady s) (hc : s.cmdIn ≠ []) (pos : DecoderPos) (hf : fetchCommand s = .more pos) :
      StepCase s (bytesTaken pos [] s)
  /-- The command bytes complete a packet, and the command is executed. -/
  | command (he : EncoderReady s) (hc : s.cmdIn ≠ []) (i : Instr) (rest : List Byte) (t : State)
      (hf : fetchCommand s = .done i rest) (ht : exec i (bytesTaken .boundary rest s) = .next t) : StepCase s t
  /-- A reserved opcode is met. -/
  | illegal (he : EncoderReady s) (hc : s.cmdIn ≠ []) (b : Byte) (rest : List Byte)
      (hf : fetchCommand s = .illegal b rest) : StepCase s (raise .illegalCmd (bytesTaken .boundary rest s))

/-- A step has a next state in exactly those ways. -/
theorem step_next_iff {s t : State} : step s = .next t ↔ LayoutWF s.params.layout ∧ StepCase s t := by
  constructor
  · intro h
    obtain ⟨hw, ⟨hp, rfl⟩ | ⟨hp, n, hr, rfl⟩ | ⟨hp, hr, ⟨b, hb, ht⟩ | ⟨hb, hh, hcases⟩⟩⟩ := step_next_cases h
    · exact ⟨hw, .powerUp hp⟩
    · exact ⟨hw, .reset n hp hr⟩
    · rw [exec_decodeWire] at ht
      obtain ⟨-, hx, ht⟩ := withReceiver_next.1 ht
      cases ht
      exact ⟨hw, .device b hp hr hb hx⟩
    · refine ⟨hw, ?_⟩
      obtain ⟨ha, hn, rfl⟩ | ⟨ha, hc, hcommand⟩ := hcases
      · exact .resume hp hr hb hh ha hn
      · have he : EncoderReady s := ⟨hw, hp, hr, hb, hh, ha⟩
        obtain ⟨pos, hf, rfl⟩ | ⟨i, rest, hf, ht⟩ | ⟨b, rest, hf, rfl⟩ := hcommand
        · exact .keep he hc pos hf
        · exact .command he hc i rest t hf ht
        · exact .illegal he hc b rest hf
  · rintro ⟨hw, h⟩
    cases h with
    | powerUp hp => exact step_of_powerUp hw hp
    | reset n hp hr => exact step_of_reset hw hp hr
    | device b hp hr hb hx =>
      rw [step_of_wireByte hw hp hr hb, exec_decodeWire]
      exact withReceiver_of_wf (s := wireByteTaken s) hw hx _
    | resume hp hr hb hh ha hn => rw [step_of_upToDate hw hp hr hb, stepEncoder_of_answered hh ha hn]
    | keep he hc pos hf => rw [step_of_ready he hc, stepCommand_of_more hf]
    | command he hc i rest t hf ht => rw [step_of_ready he hc, stepCommand_of_done hf, ht]
    | illegal he hc b rest hf => rw [step_of_ready he hc, stepCommand_of_illegal hf]

/-! ### The ways an instruction has a next state -/

/-- A cell masked by the Layout has no bit outside the mask. -/
theorem and_mask_outside (layout : Layout) (b : Byte) : b &&& mask layout &&& ~~~mask layout = 0#8 := by
  simp [BitVec.and_assoc]

theorem isFrame_iff {layout : Layout} {f : List Byte} :
    IsFrame layout f ↔ f.length = layout.L ∧ ∀ b ∈ f, b &&& ~~~mask layout = 0#8 := by
  simp [IsFrame, isFrame]

theorem storeCols_within_mask (layout : Layout) (i : Nat) (cols f : List Byte)
    (hf : ∀ b ∈ f, b &&& ~~~mask layout = 0#8) : ∀ b ∈ storeCols layout i cols f, b &&& ~~~mask layout = 0#8 := by
  induction cols generalizing i f with
  | nil => exact hf
  | cons c cols ih =>
    refine ih (i + 1) _ fun b hb => ?_
    obtain hb | rfl := List.mem_or_eq_of_mem_set hb
    · exact hf b hb
    · exact and_mask_outside layout c

/-- The packer builds a Frame from any columns (R110). -/
theorem pack_isFrame (layout : Layout) (cols : List Byte) : IsFrame layout (pack layout cols) := by
  refine isFrame_iff.2 ⟨by simp [pack], storeCols_within_mask layout 0 _ _ fun b hb => ?_⟩
  rw [List.eq_of_mem_replicate hb, BitVec.zero_and]

/-- The complement of L cells is a Frame, whatever they hold (R125). -/
theorem negative_isFrame {layout : Layout} {f : List Byte} (hf : f.length = layout.L) :
    IsFrame layout (negative layout f) := by
  refine isFrame_iff.2 ⟨by rw [negative_length, hf], fun b hb => ?_⟩
  obtain ⟨c, -, rfl⟩ := List.mem_map.1 hb
  exact and_mask_outside layout _

/-- The ways `i` has a next state at `s`, with the state it has. -/
inductive ExecCase (i : Instr) (s : State) : State → Prop
  /-- The command ends without fault and nothing else (RSP_OK). -/
  | ended : ExecCase i s (respond okCode s)
  /-- A fault is raised. -/
  | fault (c : Cause) : ExecCase i s (raise c s)
  /-- A frame is stored (PACK, PACKD, NEG). -/
  | stored (f : List Byte) (hf : s.fb.length = s.params.layout.L → IsFrame s.params.layout f) :
      ExecCase i s (respond okCode (storeFrame f s))
  /-- A valid frame is transmitted (TX). -/
  | transmit (hv : s.fbv = true) : ExecCase i s (sendSegs (stateSegs s) (startTx s))
  /-- The device consumes a wire byte. -/
  | received (hi : i.space = .wire) (b : Byte) : ExecCase i s { s with rx := rxByte s.params s.rx b }

/-- Every instruction that has a next state has it in one of those ways. -/
theorem exec_next_cases {i : Instr} {s t : State} (h : exec i s = .next t) : ExecCase i s t := by
  cases i with
  | pack cols =>
    obtain ⟨-, ht⟩ := withLayout_next.1 h
    cases ht
    exact .stored _ fun _ => pack_isFrame ..
  | packd top bottom =>
    obtain ⟨-, ht⟩ := withLayout_next.1 h
    cases ht
    exact .stored _ fun _ => pack_isFrame ..
  | neg =>
    obtain ⟨-, ht⟩ := withLayout_next.1 h
    split at ht <;> cases ht
    · rename_i hv
      have hs : { s with fb := negative s.params.layout s.fb } = storeFrame (negative s.params.layout s.fb) s := by
        rw [storeFrame, ← hv]
      rw [hs]
      exact .stored _ negative_isFrame
    · exact .fault .fbInvalid
  | tx =>
    obtain ⟨-, ht⟩ := withLayout_next.1 h
    split at ht <;> cases ht
    · exact .transmit (by assumption)
    · exact .fault .fbInvalid
  | rspOk => cases h; exact .ended
  | rspTeDisconnected => cases h; exact .fault .teDisconnected
  | rspTeTimeout => cases h; exact .fault .teTimeout
  | rspTeWriteRejected => cases h; exact .fault .teWriteRejected
  | rspIllegalCmd => cases h; exact .fault .illegalCmd
  | rspFbInvalid => cases h; exact .fault .fbInvalid
  | pix v =>
    obtain ⟨-, -, ht⟩ := withReceiver_next.1 h
    cases ht
    exact .received rfl _
  | ctl v =>
    obtain ⟨-, -, ht⟩ := withReceiver_next.1 h
    cases ht
    exact .received rfl _

end Sys2Proof.Machine
end

section
/-! PROOFS. The command decoder over stretches of bytes (spec/10_state.md R37, spec/30_encoding.md R71 to R79). -/

namespace Sys2Proof.Machine

open Sys2Proof

/-! ### One byte after another -/

theorem feed_nil (pos : DecoderPos) : feed pos [] = .more pos := rfl

theorem feed_cons_of_more {pos pos' : DecoderPos} {b : Byte} (h : feedByte pos b = .more pos') (rest : List Byte) :
    feed pos (b :: rest) = feed pos' rest := by simp [feed, h]

theorem feed_cons_of_done {pos : DecoderPos} {b : Byte} {i : Instr} (h : feedByte pos b = .done i)
    (rest : List Byte) : feed pos (b :: rest) = .done i rest := by simp [feed, h]

theorem feed_cons_of_illegal {pos : DecoderPos} {b c : Byte} (h : feedByte pos b = .illegal c) (rest : List Byte) :
    feed pos (b :: rest) = .illegal c rest := by simp [feed, h]

/-- More bytes arrive after what the decoder has made of those before: an incomplete packet goes on, and anything else
leaves them for later. -/
def onArrival (ys : List Byte) : Decoded → Decoded
  | .more pos => feed pos ys
  | .done i rest => .done i (rest ++ ys)
  | .illegal b rest => .illegal b (rest ++ ys)

/-- The decoder takes a stream in two arrivals as it takes it in one. -/
theorem feed_append (pos : DecoderPos) (xs ys : List Byte) : feed pos (xs ++ ys) = onArrival ys (feed pos xs) := by
  induction xs generalizing pos with
  | nil => rfl
  | cons b xs ih =>
    rw [List.cons_append]
    cases h : feedByte pos b with
    | more pos' => rw [feed_cons_of_more h, feed_cons_of_more h, ih]
    | done i => rw [feed_cons_of_done h, feed_cons_of_done h, onArrival]
    | illegal c => rw [feed_cons_of_illegal h, feed_cons_of_illegal h, onArrival]

/-- Settles O3: the three outcomes of the first arrival are the three cases of `onArrival`. -/
theorem decoderIgnoresArrivalCuts : Obligations.DecoderIgnoresArrivalCuts := by
  intro pos xs ys
  refine ⟨fun pos' h => ?_, fun i rest h => ?_, fun b rest h => ?_⟩ <;> rw [feed_append, h, onArrival]

/-! ### What the decoder can answer -/

theorem feedByte_done_space {pos : DecoderPos} {b : Byte} {i : Instr} (h : feedByte pos b = .done i) :
    i.space = .cmd := by
  cases pos with
  | boundary =>
    simp only [feedByte, feedOpcode] at h
    split at h <;> cases h <;> rfl
  | packLenLo | topLenLo | bottomLenLo => cases h
  | packLenHi | topLenHi | bottomLenHi =>
    simp only [feedByte, startCols, startTop, startBottom] at h
    split at h <;> cases h <;> rfl
  | packCols | topBytes | bottomBytes =>
    simp only [feedByte] at h
    split at h <;> cases h <;> rfl

/-- The command decoder completes commands of FE-CMD and no other row (R71 to R75). -/
theorem feed_done_space {pos : DecoderPos} {xs rest : List Byte} {i : Instr} (h : feed pos xs = .done i rest) :
    i.space = .cmd := by
  induction xs generalizing pos with
  | nil => cases h
  | cons b xs ih =>
    cases hb : feedByte pos b with
    | more pos' => exact ih (feed_cons_of_more hb xs ▸ h)
    | done j =>
      rw [feed_cons_of_done hb] at h
      cases h
      exact feedByte_done_space hb
    | illegal c =>
      rw [feed_cons_of_illegal hb] at h
      cases h

theorem feed_cons_eq_more {pos pos' : DecoderPos} {b : Byte} {rest : List Byte}
    (h : feed pos (b :: rest) = .more pos') : ∃ p, feedByte pos b = .more p ∧ feed p rest = .more pos' := by
  cases hb : feedByte pos b with
  | more p => exact ⟨p, rfl, feed_cons_of_more hb rest ▸ h⟩
  | done i =>
    rw [feed_cons_of_done hb] at h
    cases h
  | illegal c =>
    rw [feed_cons_of_illegal hb] at h
    cases h

/-- Once a byte of a packet is consumed the decoder is not at a boundary before the packet is complete (R79). -/
theorem feed_more_ne_boundary {pos pos' : DecoderPos} {xs : List Byte} (hx : xs ≠ [] ∨ pos ≠ .boundary)
    (h : feed pos xs = .more pos') : pos' ≠ .boundary := by
  induction xs generalizing pos with
  | nil =>
    cases h
    exact hx.resolve_left (absurd rfl)
  | cons b xs ih =>
    obtain ⟨p, hb, hrest⟩ := feed_cons_eq_more h
    exact ih (.inr (feedByte_more hb)) hrest

end Sys2Proof.Machine
end

section
/-! PROOFS. What the encoder's operations and the step leave alone of the configuration, H and the device, and the
statements that rest on it (spec/10_state.md R21, R22, R38, R39). -/

namespace Sys2Proof.Machine

open Sys2Proof

/-! ### The configuration, H and the device -/

/-- What everything the encoder does has in common: it keeps the configuration and the device and only appends to H. -/
structure EncoderOnly (s t : State) : Prop where
  params : t.params = s.params
  rx : t.rx = s.rx
  rxSeen : t.rxSeen = s.rxSeen
  sink : s.sink <+: t.sink

theorem EncoderOnly.trans {s t u : State} (h : EncoderOnly s t) (h' : EncoderOnly t u) : EncoderOnly s u :=
  ⟨h'.params.trans h.params, h'.rx.trans h.rx, h'.rxSeen.trans h.rxSeen, h.sink.trans h'.sink⟩

theorem sendSegs_sink_prefix (ss : List (List Byte)) (s : State) : s.sink <+: (sendSegs ss s).sink := by
  induction ss generalizing s with
  | nil => simp [sendSegs_nil]
  | cons seg later ih =>
    obtain h | ⟨as, h⟩ | ⟨kind, n, as, h⟩ := answers_cases s
    · simp [sendSegs_of_silent h]
    · rw [sendSegs_of_ok h]
      refine List.IsPrefix.trans ?_ (ih _)
      exact List.prefix_append ..
    · simp [sendSegs_of_fail h]

theorem sendSegs_encoderOnly (ss : List (List Byte)) (s : State) : EncoderOnly s (sendSegs ss s) := by
  obtain ⟨hparams, -, -, -, -, hseen, hrx, -, -⟩ := sendSegs_frame ss s
  exact ⟨hparams, hrx, hseen, sendSegs_sink_prefix ss s⟩

theorem bytesTaken_encoderOnly (pos : DecoderPos) (rest : List Byte) (s : State) :
    EncoderOnly s (bytesTaken pos rest s) := ⟨rfl, rfl, rfl, List.prefix_rfl⟩

theorem raise_encoderOnly (c : Cause) (s : State) : EncoderOnly s (raise c s) := ⟨rfl, rfl, rfl, List.prefix_rfl⟩

theorem takeReset_encoderOnly (n : Nat) (s : State) : EncoderOnly s (takeReset n s) :=
  ⟨rfl, rfl, rfl, List.prefix_append ..⟩

theorem execTx_encoderOnly (s : State) : EncoderOnly s (sendSegs (stateSegs s) (startTx s)) :=
  have hstart : EncoderOnly s (startTx s) := ⟨rfl, rfl, rfl, List.prefix_rfl⟩
  hstart.trans (sendSegs_encoderOnly _ _)

/-- A command or a response row is the encoder's alone. -/
theorem exec_encoderOnly {i : Instr} {s t : State} (hi : i.space ≠ .wire) (h : exec i s = .next t) :
    EncoderOnly s t := by
  cases exec_next_cases h with
  | ended => exact ⟨rfl, rfl, rfl, List.prefix_rfl⟩
  | fault c => exact raise_encoderOnly c s
  | stored f _ => exact ⟨rfl, rfl, rfl, List.prefix_rfl⟩
  | transmit _ => exact execTx_encoderOnly s
  | received hw _ => exact absurd hw hi

/-- No instruction changes the configuration. -/
theorem exec_params {i : Instr} {s t : State} (h : exec i s = .next t) : t.params = s.params := by
  cases exec_next_cases h with
  | ended | fault | stored | received => rfl
  | transmit => exact (execTx_encoderOnly s).params

/-- What a step can do to the device: its power-up, the next byte of H consumed, or nothing while H grows. -/
theorem step_device_cases {s t : State} (h : step s = .next t) :
    (s.powerUpPin = true ∧ t = powerUpDevice s) ∨
    (∃ b, nextWireByte s = some b ∧
      t = { s with rxSeen := s.rxSeen + 1, rx := rxByte s.params s.rx b }) ∨
    EncoderOnly s t := by
  obtain ⟨-, hcase⟩ := step_next_iff.1 h
  cases hcase with
  | powerUp hp => exact .inl ⟨hp, rfl⟩
  | reset n _ _ => exact .inr (.inr (takeReset_encoderOnly n s))
  | device b _ _ hb _ => exact .inr (.inl ⟨b, hb, rfl⟩)
  | resume => exact .inr (.inr (sendSegs_encoderOnly _ s))
  | keep _ _ pos _ => exact .inr (.inr (bytesTaken_encoderOnly pos [] s))
  | command _ _ i rest _ hf ht =>
    have hi : i.space ≠ .wire := by rw [feed_done_space hf]; decide
    exact .inr (.inr ((bytesTaken_encoderOnly .boundary rest s).trans (exec_encoderOnly hi ht)))
  | illegal _ _ _ rest _ =>
    exact .inr (.inr ((bytesTaken_encoderOnly .boundary rest s).trans (raise_encoderOnly .illegalCmd _)))

/-- Settles O48: the encoder keeps the configuration, and neither the device nor its power-up touches it. -/
theorem configurationNeverChanges : Obligations.ConfigurationNeverChanges := by
  refine ⟨fun i s t h => exec_params h, fun s t h => ?_⟩
  obtain ⟨-, rfl⟩ | ⟨b, -, rfl⟩ | hkept := step_device_cases h
  · rfl
  · rfl
  · exact hkept.params

/-- Settles O49: only the device's power-up takes anything out of H. -/
theorem sinkOnlyGrows : Obligations.SinkOnlyGrows := by
  intro s t h hp
  obtain ⟨hpowered, -⟩ | ⟨b, -, rfl⟩ | hkept := step_device_cases h
  · rw [hp] at hpowered
    cases hpowered
  · exact ⟨[], (List.append_nil _).symm⟩
  · obtain ⟨more, hmore⟩ := hkept.sink
    exact ⟨more, hmore.symm⟩

/-- Where H only grows and the device does not move, its history is what it was. -/
theorem EncoderOnly.deviceInv {s t : State} (h : EncoderOnly s t) (hs : DeviceInv s) : DeviceInv t := by
  obtain ⟨hparams, hrx, hseen, more, hsink⟩ := h
  obtain ⟨hle, hrun⟩ := hs
  rw [DeviceInv, hparams, hrx, hseen, ← hsink, List.take_append_of_le_length hle]
  exact ⟨hle.trans (by simp), hrun⟩

/-- Consuming the next byte of H extends the consumed part by that byte. -/
theorem deviceInv_of_byte {s : State} {b : Byte} (hs : DeviceInv s) (hb : nextWireByte s = some b) :
    DeviceInv { s with rxSeen := s.rxSeen + 1, rx := rxByte s.params s.rx b } := by
  obtain ⟨-, hrun⟩ := hs
  obtain ⟨hlt, hget⟩ := List.getElem?_eq_some_iff.1 hb
  refine ⟨hlt, ?_⟩
  calc rxByte s.params s.rx b
      = rxRun s.params s.rx [b] := rfl
    _ = rxRun s.params (Receiver.initial s.params) (s.sink.take s.rxSeen ++ [b]) := by
        rw [rxRun_append_bytes, ← hrun]
    _ = rxRun s.params (Receiver.initial s.params) (s.sink.take (s.rxSeen + 1)) := by
        rw [List.take_succ_eq_append_getElem hlt, hget]

/-- Settles O54: a power-up empties H and makes the receiver initial, a wire byte extends the consumed part, and
everything else leaves the consumed part alone. -/
theorem stepKeepsDeviceHistory : Obligations.StepKeepsDeviceHistory := by
  intro s t hs h
  obtain ⟨-, rfl⟩ | ⟨b, hb, rfl⟩ | hkept := step_device_cases h
  · exact ⟨Nat.le_refl 0, rfl⟩
  · exact deviceInv_of_byte hs hb
  · exact hkept.deviceInv hs

end Sys2Proof.Machine
end

section
/-! PROOFS. The encoder's registers under every step: the sticky fault bits, the halted block, the frame register and
the control state (spec/10_state.md R33 to R37, R43, spec/60_exceptions.md R186). -/

namespace Sys2Proof.Machine

open Sys2Proof

/-! ### The fault bits -/

/-- Every FAULTS bit set in `s` is set in `t` (R35). -/
def FaultsKept (s t : State) : Prop := ∀ k, s.faults.getLsbD k = true → t.faults.getLsbD k = true

theorem FaultsKept.of_eq {s t : State} (h : t.faults = s.faults) : FaultsKept s t := fun _ hk => h ▸ hk

theorem FaultsKept.raise {s t : State} (h : FaultsKept s t) (c : Cause) : FaultsKept s (raise c t) := by
  intro k hk
  simp [withCause, h k hk]

theorem sendSegs_faultsKept (ss : List (List Byte)) (s : State) : FaultsKept s (sendSegs ss s) := by
  induction ss generalizing s with
  | nil => exact .of_eq rfl
  | cons seg later ih =>
    obtain h | ⟨as, h⟩ | ⟨kind, n, as, h⟩ := answers_cases s
    · rw [sendSegs_of_silent h]
      exact .of_eq rfl
    · rw [sendSegs_of_ok h]
      exact fun k hk => ih _ k hk
    · rw [sendSegs_of_fail h]
      exact .raise (.of_eq rfl) _

theorem exec_faultsKept {i : Instr} {s t : State} (h : exec i s = .next t) : FaultsKept s t := by
  cases exec_next_cases h with
  | ended | stored | received => exact .of_eq rfl
  | fault c => exact .raise (.of_eq rfl) c
  | transmit => exact sendSegs_faultsKept _ (startTx s)

/-- Settles O38: the only step that clears a FAULTS bit is the one that takes the reset input. -/
theorem faultBitsSticky : Obligations.FaultBitsSticky := by
  intro s t h hreset
  change FaultsKept s t
  obtain ⟨-, hcase⟩ := step_next_iff.1 h
  cases hcase with
  | powerUp | device | keep => exact .of_eq rfl
  | reset n hp hr => simp [hp, hr] at hreset
  | resume => exact sendSegs_faultsKept _ s
  | command _ _ i rest _ _ ht => exact exec_faultsKept (s := bytesTaken .boundary rest s) ht
  | illegal _ _ _ rest _ => exact .raise (.of_eq rfl) _

/-- Settles O39: without reset a halted block leaves the step to the device and its power-up, which touch no register
of the encoder. -/
theorem haltedUntilReset : Obligations.HaltedUntilReset := by
  intro s t h hhalt hreset
  obtain ⟨-, hcase⟩ := step_next_iff.1 h
  cases hcase with
  | powerUp | device => exact ⟨hhalt, rfl, rfl, rfl, rfl, rfl, rfl, rfl, rfl, rfl, rfl⟩
  | reset n _ hr => simp [hreset] at hr
  | resume _ _ _ hh => simp [hhalt] at hh
  | keep he | command he | illegal he => exact absurd he.not_halted (by simp [hhalt])

/-! ### The frame register -/

theorem FrameInv.congr {s t : State} (hs : FrameInv s) (hparams : t.params = s.params) (hfb : t.fb = s.fb)
    (hfbv : t.fbv = s.fbv) : FrameInv t := by
  rw [FrameInv, hparams, hfb, hfbv]
  exact hs

/-- A stored Frame has the L cells of the frame register. -/
theorem frameInv_of_isFrame {t : State} (h : IsFrame t.params.layout t.fb) : FrameInv t :=
  ⟨(isFrame_iff.1 h).1, fun _ => h⟩

theorem sendSegs_frameInv (ss : List (List Byte)) {s : State} (hs : FrameInv s) : FrameInv (sendSegs ss s) := by
  obtain ⟨hparams, hfb, hfbv, -⟩ := sendSegs_frame ss s
  exact hs.congr hparams hfb hfbv

theorem exec_frameInv {i : Instr} {s t : State} (hs : FrameInv s) (h : exec i s = .next t) : FrameInv t := by
  cases exec_next_cases h with
  | ended | fault | received => exact hs.congr rfl rfl rfl
  | stored f hf => exact frameInv_of_isFrame (hf hs.1)
  | transmit => exact sendSegs_frameInv _ (hs.congr rfl rfl rfl : FrameInv (startTx s))

/-- Settles O51: FB is written by the commands that store a Frame and by reset, which clears FBV. -/
theorem stepKeepsFrame : Obligations.StepKeepsFrame := by
  intro s t hs h
  obtain ⟨-, hcase⟩ := step_next_iff.1 h
  cases hcase with
  | powerUp | device | keep | illegal => exact hs.congr rfl rfl rfl
  | reset n _ _ => exact ⟨zeros_length _, nofun⟩
  | resume => exact sendSegs_frameInv _ hs
  | command _ _ i rest _ _ ht => exact exec_frameInv (s := bytesTaken .boundary rest s) (hs.congr rfl rfl rfl) ht

/-! ### The control state -/

/-- A block that has ended its command has a consistent control state where HALT is the record of ILLEGAL_CMD. -/
theorem controlInv_of_ended {t : State} (hbusy : t.busy = false) (htxs : t.txs = Sequencer.idle)
    (hdec : t.dec = .boundary) (hhalt : t.halt = true ↔ t.faults.getLsbD 3 = true) : ControlInv t where
  busy_iff := by simp [hbusy, htxs, hdec, Sequencer.idle]
  idle_zero _ := htxs
  active_valid ha := by simp [htxs, Sequencer.idle] at ha
  active_place ha := by simp [htxs, Sequencer.idle] at ha
  halt_iff := hhalt
  halt_idle _ := hbusy

/-- Raising a fault sets FAULTS bit 3 exactly when it sets HALT (R182 to R184). -/
theorem haltAfter_iff {halt : Bool} {faults : BitVec 5} (h : halt = true ↔ faults.getLsbD 3 = true) (c : Cause) :
    haltAfter halt c = true ↔ (withCause faults c).getLsbD 3 = true := by
  cases c <;> simp [haltAfter, withCause, causeBit, h]

theorem raise_controlInv {s : State} (h : s.halt = true ↔ s.faults.getLsbD 3 = true) (c : Cause) :
    ControlInv (raise c s) := controlInv_of_ended rfl rfl rfl (haltAfter_iff h c)

theorem respond_controlInv {s : State} (h : s.halt = true ↔ s.faults.getLsbD 3 = true) (code : Byte) :
    ControlInv (respond code s) := controlInv_of_ended rfl rfl rfl h

/-- A TX is executing on a block that is not halted (R132, R133). -/
structure Sending (s : State) : Prop where
  busy : s.busy = true
  active : s.txs.active = true
  valid : s.fbv = true
  dec : s.dec = .boundary
  not_halted : s.halt = false
  halt_iff : s.halt = true ↔ s.faults.getLsbD 3 = true

/-- A TX that has just handed over the segment it stands at waits in a consistent control state. -/
theorem Sending.handOver_controlInv {s : State} {seg : List Byte} (hs : Sending s)
    (hseg : (stateSegs s)[s.txs.seg]? = some seg) : ControlInv (handOver seg s) where
  busy_iff := by simp [hs.busy, hs.active]
  idle_zero h := by simp [hs.active] at h
  active_valid _ := ⟨hs.valid, hs.dec⟩
  active_place _ := ⟨seg, hseg, rfl⟩
  halt_iff := hs.halt_iff
  halt_idle h := by simp [hs.not_halted] at h

/-- The loop over the segments from the sequencer's place on ends or waits in a consistent control state. -/
theorem Sending.sendSegs_controlInv {ss : List (List Byte)} {s : State} (hs : Sending s)
    (hss : (stateSegs s).drop s.txs.seg = ss) : ControlInv (sendSegs ss s) := by
  induction ss generalizing s with
  | nil => exact respond_controlInv hs.halt_iff okCode
  | cons seg later ih =>
    have hseg : (stateSegs s)[s.txs.seg]? = some seg := by rw [← List.head?_drop, hss, List.head?_cons]
    have hlater : (stateSegs s).drop (s.txs.seg + 1) = later := by rw [← List.tail_drop, hss, List.tail_cons]
    obtain h | ⟨as, h⟩ | ⟨kind, n, as, h⟩ := answers_cases s
    · rw [sendSegs_of_silent h]
      exact hs.handOver_controlInv hseg
    · rw [sendSegs_of_ok h]
      exact ih ⟨hs.busy, rfl, hs.valid, hs.dec, hs.not_halted, hs.halt_iff⟩ hlater
    · rw [sendSegs_of_fail h]
      refine raise_controlInv ?_ _
      exact hs.halt_iff

/-- A command that is executed where HALT = 0 ends or waits in a consistent control state. -/
theorem exec_controlInv {i : Instr} {s t : State} (hi : i.space ≠ .wire) (hdec : s.dec = .boundary)
    (hh : s.halt = false) (hhalt : s.halt = true ↔ s.faults.getLsbD 3 = true) (h : exec i s = .next t) :
    ControlInv t := by
  cases exec_next_cases h with
  | ended => exact respond_controlInv hhalt okCode
  | fault c => exact raise_controlInv hhalt c
  | stored f _ => exact respond_controlInv (s := storeFrame f s) hhalt okCode
  | transmit hv =>
    have hstart : Sending (startTx s) := ⟨rfl, rfl, hv, hdec, hh, hhalt⟩
    exact hstart.sendSegs_controlInv (List.drop_zero ..)
  | received hw _ => exact absurd hw hi

/-- An incomplete packet keeps BUSY set and the decoder inside the packet (R79). -/
theorem keep_controlInv {s : State} {pos : DecoderPos} (hs : ControlInv s) (he : EncoderReady s)
    (hpos : pos ≠ .boundary) : ControlInv (bytesTaken pos [] s) where
  busy_iff := by simp [hpos]
  idle_zero := hs.idle_zero
  active_valid h := by simp [he.no_tx] at h
  active_place h := by simp [he.no_tx] at h
  halt_iff := hs.halt_iff
  halt_idle h := by simp [he.not_halted] at h

/-- The reset input ends whatever the block was doing and clears HALT and FAULTS together (R200). -/
theorem takeReset_controlInv (n : Nat) (s : State) : ControlInv (takeReset n s) :=
  controlInv_of_ended rfl rfl rfl (by simp [takeReset])

/-- Settles O52: the device touches nothing of the control state, and each way the encoder goes on leaves it ended,
waiting in its segment or inside a packet. -/
theorem stepKeepsControlState : Obligations.StepKeepsControlState := by
  intro s t hs h
  obtain ⟨-, hcase⟩ := step_next_iff.1 h
  cases hcase with
  | powerUp | device => exact ⟨hs.busy_iff, hs.idle_zero, hs.active_valid, hs.active_place, hs.halt_iff, hs.halt_idle⟩
  | reset n _ _ => exact takeReset_controlInv n s
  | resume _ _ _ hh ha _ =>
    obtain ⟨hv, hd⟩ := hs.active_valid ha
    have hsending : Sending s := ⟨hs.busy_iff.2 (.inl ha), ha, hv, hd, hh, hs.halt_iff⟩
    exact hsending.sendSegs_controlInv rfl
  | keep he hc pos hf => exact keep_controlInv hs he (feed_more_ne_boundary (.inl hc) hf)
  | command he _ i rest _ hf ht =>
    have hi : i.space ≠ .wire := by rw [feed_done_space hf]; decide
    exact exec_controlInv (s := bytesTaken .boundary rest s) hi rfl he.not_halted hs.halt_iff ht
  | illegal _ _ _ rest _ => exact raise_controlInv (s := bytesTaken .boundary rest s) hs.halt_iff .illegalCmd

end Sys2Proof.Machine
end

section
/-! PROOFS. The encoder apart from the device (spec/10_state.md R39). -/

namespace Sys2Proof.Machine

open Sys2Proof

/-- The machine with another state of the device. -/
def withRx (other : Receiver) (s : State) : State := { s with rx := other }

theorem sendSegs_withRx (other : Receiver) (ss : List (List Byte)) (s : State) :
    sendSegs ss (withRx other s) = withRx other (sendSegs ss s) := by
  induction ss generalizing s with
  | nil => rfl
  | cons seg later ih =>
    obtain h | ⟨as, h⟩ | ⟨kind, n, as, h⟩ := answers_cases s
    · rw [sendSegs_of_silent h, sendSegs_of_silent (s := withRx other s) h]
      rfl
    · rw [sendSegs_of_ok h, sendSegs_of_ok (s := withRx other s) h]
      rw [← ih]
      rfl
    · rw [sendSegs_of_fail h, sendSegs_of_fail (s := withRx other s) h]
      rfl

/-- A command or a response row does the same whatever the device's state. -/
theorem exec_withRx {i : Instr} {s t : State} (other : Receiver) (hi : i.space ≠ .wire) (h : exec i s = .next t) :
    exec i (withRx other s) = .next (withRx other t) := by
  cases i with
  | pack cols =>
    obtain ⟨hw, ht⟩ := withLayout_next.1 h
    cases ht
    exact withLayout_next.2 ⟨hw, rfl⟩
  | packd top bottom =>
    obtain ⟨hw, ht⟩ := withLayout_next.1 h
    cases ht
    exact withLayout_next.2 ⟨hw, rfl⟩
  | neg =>
    obtain ⟨hw, ht⟩ := withLayout_next.1 h
    refine withLayout_next.2 ⟨hw, ?_⟩
    split at ht <;> cases ht <;> rename_i hv
    · exact if_pos hv
    · exact if_neg hv
  | tx =>
    obtain ⟨hw, ht⟩ := withLayout_next.1 h
    refine withLayout_next.2 ⟨hw, ?_⟩
    split at ht <;> cases ht <;> rename_i hv
    · rw [← sendSegs_withRx]
      exact if_pos hv
    · exact if_neg hv
  | rspOk | rspTeDisconnected | rspTeTimeout | rspTeWriteRejected | rspIllegalCmd | rspFbInvalid =>
    cases h
    rfl
  | pix v | ctl v => exact absurd rfl hi

theorem EncoderReady.withRx {s : State} (h : EncoderReady s) (other : Receiver) : EncoderReady (withRx other s) :=
  ⟨h.layout_wf, h.no_power_up, h.no_reset, h.device_done, h.not_halted, h.no_tx⟩

/-- Settles O50: each way a step has a next state is open to it whatever the device's state, and only the device's own
steps leave another device behind. -/
theorem deviceCannotInfluenceEncoder : Obligations.DeviceCannotInfluenceEncoder := by
  intro s t other h
  change ∃ other', step (withRx other s) = .next (withRx other' t)
  obtain ⟨hw, hcase⟩ := step_next_iff.1 h
  simp only [step_next_iff]
  cases hcase with
  | powerUp hp => exact ⟨Receiver.initial s.params, hw, .powerUp (s := withRx other s) hp⟩
  | reset n hp hr => exact ⟨other, hw, .reset (s := withRx other s) n hp hr⟩
  | device b hp hr hb hx =>
    exact ⟨rxByte s.params other b, hw, .device (s := withRx other s) b hp hr hb hx⟩
  | resume hp hr hb hh ha hn =>
    refine ⟨other, hw, ?_⟩
    rw [resumeTx, ← sendSegs_withRx]
    exact .resume (s := withRx other s) hp hr hb hh ha hn
  | keep he hc pos hf => exact ⟨other, hw, .keep (he.withRx other) hc pos hf⟩
  | command he hc i rest _ hf ht =>
    have hi : i.space ≠ .wire := by rw [feed_done_space hf]; decide
    exact ⟨other, hw, .command (he.withRx other) hc i rest _ hf (exec_withRx other hi ht)⟩
  | illegal he hc b rest hf => exact ⟨other, hw, .illegal (he.withRx other) hc b rest hf⟩

end Sys2Proof.Machine
end

section
/-! PROOFS. What a step runs, where it stops and where it is refused (spec/10_state.md R20, R22, R35, R79, R134), and the
state after reset (R41). -/

namespace Sys2Proof.Machine

open Sys2Proof

/-! ### The decoded instruction -/

theorem fetchCommand_done_cmdIn {s : State} {i : Instr} {rest : List Byte} (h : fetchCommand s = .done i rest) :
    s.cmdIn ≠ [] := by
  intro hc
  rw [fetchCommand, hc, feed_nil] at h
  cases h

/-- Settles O42: a ready encoder reads its command port, and a byte of H is taken by the device before the encoder
goes on. -/
theorem stepRunsDecodedInstruction : Obligations.StepRunsDecodedInstruction := by
  refine ⟨fun s i rest he hf => ?_, fun s b hw hp hr hb => step_of_wireByte hw hp hr hb⟩
  rw [step_of_ready he (fetchCommand_done_cmdIn hf), stepCommand_of_done hf, bytesTaken]

/-! ### Totality -/

/-- With a well-formed configuration every instruction has a next state. -/
theorem exec_total {s : State} (hw : LayoutWF s.params.layout) (hx : ReceiverWF s.params) (i : Instr) :
    ∃ t, exec i s = .next t := by
  cases i with
  | pack | packd => exact ⟨_, withLayout_of_wf hw _⟩
  | neg | tx =>
    by_cases hv : s.fbv = true
    · exact ⟨_, (withLayout_of_wf hw _).trans (if_pos hv)⟩
    · exact ⟨_, (withLayout_of_wf hw _).trans (if_neg hv)⟩
  | rspOk | rspTeDisconnected | rspTeTimeout | rspTeWriteRejected | rspIllegalCmd | rspFbInvalid => exact ⟨_, rfl⟩
  | pix | ctl => exact ⟨_, withReceiver_of_wf hw hx _⟩

theorem stepCommand_total {s : State} (hw : LayoutWF s.params.layout) (hx : ReceiverWF s.params) :
    ∃ t, stepCommand s = .next t := by
  cases hf : fetchCommand s with
  | more pos => exact ⟨_, stepCommand_of_more hf⟩
  | done i rest =>
    rw [stepCommand_of_done hf]
    exact exec_total (s := bytesTaken .boundary rest s) hw hx i
  | illegal b rest => exact ⟨_, stepCommand_of_illegal hf⟩

/-- The encoder's step has a next state or is a stop where the block is stuck. -/
theorem stepEncoder_total {s : State} (hw : LayoutWF s.params.layout) (hx : ReceiverWF s.params) :
    (∃ t, stepEncoder s = .next t) ∨ ((∃ r, stepEncoder s = .fault r) ∧ EncoderStuck s) := by
  unfold stepEncoder
  split
  next hh => exact .inr ⟨⟨_, rfl⟩, .inl hh⟩
  next hh =>
    split
    next ha =>
      split
      next hn => exact .inr ⟨⟨_, rfl⟩, .inr (.inl ⟨ha, hn⟩)⟩
      next hn => exact .inl ⟨_, rfl⟩
    next ha =>
      have ha : s.txs.active = false := by simpa using ha
      split
      next hc =>
        refine .inr ⟨?_, .inr (.inr ⟨ha, hc⟩)⟩
        split <;> exact ⟨_, rfl⟩
      next hc => exact .inl (stepCommand_total hw hx)

/-- Settles O46: the pins and the device always have a next state, so a stop is the encoder's. -/
theorem stopsOnlyWhereStuck : Obligations.StopsOnlyWhereStuck := by
  intro s hw hx
  cases hp : s.powerUpPin with
  | true => exact .inl ⟨_, step_of_powerUp hw hp⟩
  | false =>
    cases hr : s.resetPin with
    | some n => exact .inl ⟨_, step_of_reset hw hp hr⟩
    | none =>
      cases hb : nextWireByte s with
      | some b =>
        rw [step_of_wireByte hw hp hr hb]
        exact .inl (exec_total (s := wireByteTaken s) hw hx _)
      | none =>
        rw [step_of_upToDate hw hp hr hb]
        exact (stepEncoder_total hw hx).imp_right fun ⟨hfault, hstuck⟩ => ⟨hfault, rfl, rfl, rfl, hstuck⟩

/-! ### Refusals -/

theorem exec_of_not_wf {i : Instr} {s : State} (hi : i.space ≠ .rsp) (hw : ¬LayoutWF s.params.layout) :
    exec i s = .refused .illFormedLayout := by
  cases i with
  | pack | packd | neg | tx | pix | ctl => exact withLayout_of_not_wf hw _
  | rspOk | rspTeDisconnected | rspTeTimeout | rspTeWriteRejected | rspIllegalCmd | rspFbInvalid =>
    exact absurd rfl hi

theorem withReceiver_of_not_wf {s : State} (hw : LayoutWF s.params.layout) (hx : ¬ReceiverWF s.params)
    (k : Host.Outcome State Fault Refusal) : withReceiver s k = .refused .illFormedReceiver := by
  rw [withReceiver, withLayout_of_wf hw, if_neg hx]

/-- Settles O47: the guards stand before everything else of the step and of the commands and wire bytes. -/
theorem illFormedConfigurationRefused : Obligations.IllFormedConfigurationRefused := by
  refine ⟨fun s hw => ⟨step_of_not_wf hw, fun i hi => exec_of_not_wf hi hw⟩, fun i s hi hw hx => ?_⟩
  cases i with
  | pix | ctl => exact withReceiver_of_not_wf hw hx _
  | pack | packd | neg | tx | rspOk | rspTeDisconnected | rspTeTimeout | rspTeWriteRejected | rspIllegalCmd
  | rspFbInvalid => cases hi

/-! ### After reset -/

/-- Settles O41: by the definition of the state after reset. -/
theorem resetState : Obligations.ResetState :=
  fun _ => ⟨rfl, rfl, rfl, rfl, rfl, rfl, rfl, rfl, rfl⟩

/-- Settles O56: FBV is clear, the block is idle and the ports and H are empty. -/
theorem resetMeetsInvariants : Obligations.ResetMeetsInvariants := by
  intro p
  have hframe : FrameInv (State.resetWith p) := ⟨zeros_length _, nofun⟩
  have hcontrol : ControlInv (State.resetWith p) :=
    controlInv_of_ended rfl rfl rfl (by simp [State.resetWith])
  have hdevice : DeviceInv (State.resetWith p) := ⟨Nat.le_refl 0, rfl⟩
  exact ⟨hframe, hcontrol, nofun, hdevice, nofun, nofun⟩

end Sys2Proof.Machine
end

section
/-! PROOFS. The remap (spec/10_state.md R27, spec/20_memory.md R58, R59). -/

namespace Sys2Proof.Machine

open Sys2Proof

/-- A well-formed Layout's remap is absent or a permutation (R27). -/
theorem layoutWf_remapOk {layout : Layout} (h : LayoutWF layout) : remapOk layout = true := by
  simp only [LayoutWF, layoutWf, Bool.and_eq_true] at h
  obtain ⟨⟨⟨⟨-, hremap⟩, -⟩, -⟩, -⟩ := h
  exact hremap

/-- The remap's values for `0..L-1`, in order, are those positions in another order (R27). -/
theorem map_remapOf_perm {layout : Layout} (h : LayoutWF layout) :
    ((List.range layout.L).map (remapOf layout)).Perm (List.range layout.L) := by
  cases hen : layout.remapEn with
  | false =>
    have hid : remapOf layout = id := by funext i; simp [remapOf, hen]
    rw [hid, List.map_id]
  | true =>
    have hperm : layout.remap.Perm (List.range layout.L) := by
      simpa [remapOk, hen, List.isPerm_iff] using layoutWf_remapOk h
    have hlen : layout.remap.length = layout.L := by simpa using hperm.length_eq
    have hmap : (List.range layout.L).map (remapOf layout) = layout.remap := by
      refine List.ext_getElem (by simp [hlen]) fun i hi hi' => ?_
      simp [remapOf, hen, hi']
    rwa [hmap]

/-- Settles O8: a permutation of `0..L-1` has its values there, no value twice and every value once. -/
theorem remapIsBijection : Obligations.RemapIsBijection := by
  intro layout hw
  have hperm := map_remapOf_perm hw
  have hmem : ∀ j, (∃ i, i < layout.L ∧ remapOf layout i = j) ↔ j < layout.L := fun j => by
    simpa using hperm.mem_iff (a := j)
  have hinj := List.inj_on_of_nodup_map (hperm.nodup_iff.2 List.nodup_range)
  refine ⟨fun i hi => (hmem _).1 ⟨i, hi, rfl⟩, fun i j hi hj => ?_, fun j hj => (hmem j).2 hj, hperm⟩
  exact hinj (List.mem_range.2 hi) (List.mem_range.2 hj)

end Sys2Proof.Machine
end

section
/-! PROOFS. The packets of the commands: the length field (spec/20_memory.md R54, spec/30_encoding.md R77), what the
decoder makes of a length-prefixed operand, and the command that an encoded packet runs (spec/20_memory.md R61). -/

namespace Sys2Proof.Machine

open Sys2Proof

/-! ### The length field -/

@[simp] theorem encodeLength_length (n : Nat) : (encodeLength n).length = 2 := rfl

/-- The field of an assembled length is the two bytes it was assembled from (R54). -/
theorem encodeLength_lengthOf (lo hi : Byte) : encodeLength (lengthOf lo hi) = [lo, hi] := by
  have hlo : BitVec.ofNat 8 (lengthOf lo hi % 256) = lo := by
    apply BitVec.eq_of_toNat_eq
    simp only [lengthOf, BitVec.toNat_ofNat]
    omega
  have hhi : BitVec.ofNat 8 (lengthOf lo hi / 256) = hi := by
    apply BitVec.eq_of_toNat_eq
    simp only [lengthOf, BitVec.toNat_ofNat]
    omega
  rw [encodeLength, hlo, hhi]

/-- A length of at most 16 bits is read back from its field (R77 (a)). -/
theorem exists_encodeLength_eq {n : Nat} (hn : n ≤ nMax) :
    ∃ lo hi, encodeLength n = [lo, hi] ∧ lengthOf lo hi = n := by
  refine ⟨_, _, rfl, ?_⟩
  have hbound : n ≤ 65535 := hn
  simp only [lengthOf, BitVec.toNat_ofNat]
  omega

/-- Settles O7: the opcode is one byte, a length field two, and a field and its number determine each other. -/
theorem packetLayout : Obligations.PacketLayout := by
  refine ⟨fun cols => ?_, fun top bottom => ?_, rfl, rfl, encodeLength_lengthOf, fun n hn => exists_encodeLength_eq hn⟩
  · simp only [encode, List.length_cons, List.length_append, encodeLength_length]
    omega
  · simp only [encode, List.length_cons, List.length_append, encodeLength_length]
    omega

/-! ### An operand with its length -/

/-- How the decoder goes on with the bytes after the one that gave this result. -/
def afterByte (rest : List Byte) : ByteResult → Decoded
  | .more pos => feed pos rest
  | .done i => .done i rest
  | .illegal b => .illegal b rest

theorem feed_cons (pos : DecoderPos) (b : Byte) (rest : List Byte) :
    feed pos (b :: rest) = afterByte rest (feedByte pos b) := by
  cases h : feedByte pos b with
  | more pos' => exact feed_cons_of_more h rest
  | done i => exact feed_cons_of_done h rest
  | illegal c => exact feed_cons_of_illegal h rest

/-- From `start` on, the decoder reads a length field and then that many operand bytes, and answers the last of them by
`finish` of the operand (R73, R74). -/
structure ReadsOperand (start : DecoderPos) (lenHi : Byte → DecoderPos) (operandAt : Nat → List Byte → DecoderPos)
    (finish : List Byte → ByteResult) : Prop where
  low (lo : Byte) : feedByte start lo = .more (lenHi lo)
  high (lo hi : Byte) : feedByte (lenHi lo) hi =
    if lengthOf lo hi = 0 then finish [] else .more (operandAt (lengthOf lo hi) [])
  operand (left : Nat) (buf : List Byte) (b : Byte) : feedByte (operandAt left buf) b =
    if left ≤ 1 then finish (buf ++ [b]) else .more (operandAt (left - 1) (buf ++ [b]))

theorem readsOperand_pack :
    ReadsOperand .packLenLo .packLenHi .packCols fun cols => .done (.pack cols) :=
  ⟨fun _ => rfl, fun _ _ => rfl, fun _ _ _ => rfl⟩

theorem readsOperand_top :
    ReadsOperand .topLenLo .topLenHi .topBytes fun top => .more (.bottomLenLo top) :=
  ⟨fun _ => rfl, fun _ _ => rfl, fun _ _ _ => rfl⟩

theorem readsOperand_bottom (top : List Byte) :
    ReadsOperand (.bottomLenLo top) (.bottomLenHi top) (.bottomBytes top) fun bottom => .done (.packd top bottom) :=
  ⟨fun _ => rfl, fun _ _ => rfl, fun _ _ _ => rfl⟩

section
variable {start : DecoderPos} {lenHi : Byte → DecoderPos} {operandAt : Nat → List Byte → DecoderPos}
  {finish : List Byte → ByteResult}

/-- The operand bytes are collected in the order of arrival, and the last one finishes the operand. -/
theorem ReadsOperand.feed_operandBytes (h : ReadsOperand start lenHi operandAt finish) (b : Byte)
    (xs buf rest : List Byte) :
    feed (operandAt (xs.length + 1) buf) (b :: xs ++ rest) = afterByte rest (finish (buf ++ b :: xs)) := by
  induction xs generalizing b buf with
  | nil => rw [List.cons_append, feed_cons, h.operand, List.nil_append, if_pos (by simp)]
  | cons c xs ih =>
    have hmore : ¬(c :: xs).length + 1 ≤ 1 := by simp
    rw [List.cons_append, feed_cons, h.operand, if_neg hmore]
    simpa [afterByte] using ih c (buf ++ [b])

/-- An operand behind its length field is read whole, and the bytes after it are left (R73, R74, R77). -/
theorem ReadsOperand.feed_encoded (h : ReadsOperand start lenHi operandAt finish) {xs : List Byte}
    (hxs : xs.length ≤ nMax) (rest : List Byte) :
    feed start (encodeLength xs.length ++ xs ++ rest) = afterByte rest (finish xs) := by
  obtain ⟨lo, hi, hfield, hlen⟩ := exists_encodeLength_eq hxs
  have hlength : feed start (encodeLength xs.length ++ xs ++ rest) =
      afterByte (xs ++ rest) (if xs.length = 0 then finish [] else .more (operandAt xs.length [])) := by
    rw [hfield, ← hlen, ← h.high, ← feed_cons]
    exact (feed_cons ..).trans (congrArg (afterByte _) (h.low lo))
  rw [hlength]
  cases xs with
  | nil => rfl
  | cons b xs => exact h.feed_operandBytes b xs [] rest

end

/-! ### An encoded command -/

/-- A well-formed command is decoded from its packet, and the bytes after the packet are left (R71 to R75). -/
theorem decodeCommand_encode {i : Instr} (hi : i.WellFormed) (hcmd : i.space = .cmd) (rest : List Byte) :
    decodeCommand (encode i ++ rest) = .done i rest := by
  cases i with
  | pack cols =>
    have hcols : cols.length ≤ nMax := of_decide_eq_true hi
    have hopcode : feedByte .boundary 0x00#8 = .more .packLenLo := by decide
    rw [decodeCommand, encode, List.cons_append, feed_cons_of_more hopcode, readsOperand_pack.feed_encoded hcols,
      afterByte]
  | packd top bottom =>
    obtain ⟨htop, hbottom⟩ : top.length ≤ nMax ∧ bottom.length ≤ nMax := by simpa [Instr.WellFormed, Instr.wellFormed] using hi
    have hopcode : feedByte .boundary 0x01#8 = .more .topLenLo := by decide
    rw [decodeCommand, encode, List.cons_append, feed_cons_of_more hopcode, List.append_assoc, List.append_assoc,
      readsOperand_top.feed_encoded htop, afterByte, ← List.append_assoc,
      (readsOperand_bottom top).feed_encoded hbottom, afterByte]
  | neg | tx => exact feed_cons_of_done (by decide) rest
  | rspOk | rspTeDisconnected | rspTeTimeout | rspTeWriteRejected | rspIllegalCmd | rspFbInvalid | pix | ctl =>
    cases hcmd

/-- Settles O43: a decoder at a packet boundary reads exactly the packet of the encoded command. -/
theorem encodedCommandRuns : Obligations.EncodedCommandRuns := by
  intro s i rest he hdec hi hcmd hport
  obtain ⟨hrun, -⟩ := stepRunsDecodedInstruction
  refine hrun s i rest he ?_
  rw [hdec, hport]
  exact decodeCommand_encode hi hcmd rest

end Sys2Proof.Machine
end

section
/-! PROOFS. The three byte sets: what the command decoder makes of a packet and of its parts, the reserved bytes, and the
response and wire bytes (spec/30_encoding.md R71 to R82). -/

namespace Sys2Proof.Machine

open Sys2Proof

/-! ### Packets of the command set -/

/-- Settles O1: by the length-prefixed operands of each packet format. -/
theorem commandEncodingRoundTrip : Obligations.CommandEncodingRoundTrip :=
  fun _ hi hcmd rest => decodeCommand_encode hi hcmd rest

/-- Where a stretch of bytes is exactly one packet, an earlier cut of it leaves the decoder inside the packet, and the
bytes after the cut complete it (R79). -/
theorem feed_cut_of_done {pos : DecoderPos} {xs ys : List Byte} {i : Instr} (h : feed pos (xs ++ ys) = .done i [])
    (hy : ys ≠ []) : ∃ pos', feed pos xs = .more pos' ∧ feed pos' ys = .done i [] := by
  rw [feed_append] at h
  cases hx : feed pos xs with
  | more pos' =>
    rw [hx, onArrival] at h
    exact ⟨pos', rfl, h⟩
  | done j rest =>
    rw [hx, onArrival, Decoded.done.injEq] at h
    exact absurd (List.append_eq_nil_iff.1 h.2).2 hy
  | illegal b rest =>
    rw [hx] at h
    cases h

/-- A cut of a command's packet leaves the decoder inside the packet, and the rest completes the command (R79). -/
theorem feed_cut_encode {i : Instr} {xs ys : List Byte} (hi : i.WellFormed) (hcmd : i.space = .cmd)
    (hcut : encode i = xs ++ ys) (hy : ys ≠ []) :
    ∃ pos, feed .boundary xs = .more pos ∧ feed pos ys = .done i [] := by
  refine feed_cut_of_done ?_ hy
  rw [← hcut, ← List.append_nil (encode i)]
  exact decodeCommand_encode hi hcmd []

/-- Settles O6: the whole packet decodes with nothing left, so its first part is not yet decided. -/
theorem incompletePacketNeverCompletes : Obligations.IncompletePacketNeverCompletes := by
  intro i hi hcmd xs ys hcut hy
  obtain ⟨pos, hpos, -⟩ := feed_cut_encode hi hcmd hcut hy
  exact ⟨pos, hpos⟩

/-- What the encoder waits for does not depend on what it has kept of the packet. -/
theorem EncoderReady.bytesTaken {s : State} (he : EncoderReady s) (pos : DecoderPos) (rest : List Byte) :
    EncoderReady (bytesTaken pos rest s) :=
  ⟨he.layout_wf, he.no_power_up, he.no_reset, he.device_done, he.not_halted, he.no_tx⟩

/-- Inside a packet and without bytes the block is stuck (R79, R214). -/
theorem step_of_underrun {s : State} (he : EncoderReady s) (hdec : s.dec ≠ .boundary) (hc : s.cmdIn = []) :
    step s = .fault .commandUnderrun := by
  rw [step_of_upToDate he.layout_wf he.no_power_up he.no_reset he.device_done]
  simp [stepEncoder, he.not_halted, he.no_tx, hc, hdec]

/-- Settles O44: the first part is kept inside the packet, and the rest completes the command from there. -/
theorem commandUnderrunWaits : Obligations.CommandUnderrunWaits := by
  intro s i xs ys rest he hdec hi hcmd hcut hx hy hport
  obtain ⟨pos, hkept, hcompleted⟩ := feed_cut_encode hi hcmd hcut hy
  have hfetch : fetchCommand s = .more pos := by rw [fetchCommand, hdec, hport, hkept]
  have hrest : feed pos (ys ++ rest) = .done i rest := by rw [feed_append, hcompleted, onArrival, List.nil_append]
  refine ⟨pos, ?_, ?_, ?_⟩
  · rw [step_of_ready he (hport ▸ hx), stepCommand_of_more hfetch, bytesTaken]
  · exact step_of_underrun (he.bytesTaken pos []) (feed_more_ne_boundary (.inl hx) hkept) rfl
  · obtain ⟨hrun, -⟩ := stepRunsDecodedInstruction
    exact hrun (bytesTaken pos (ys ++ rest) s) i rest (he.bytesTaken pos _) hrest

/-! ### Reserved bytes -/

/-- A byte with a bit set above the two opcode bits is no opcode (R72, R78). -/
theorem opcodeOf_eq_none {b : Byte} (hb : 4 ≤ b.toNat) : opcodeOf b = none := by
  refine if_neg fun hzero => ?_
  have hhigh : b.toNat >>> 2 % 64 = 0 := by simpa using congrArg BitVec.toNat hzero
  have hbound := b.isLt
  omega

/-- A reserved byte at a packet boundary is rejected, and nothing after it is consumed (R78). -/
theorem decodeCommand_reserved {b : Byte} (hb : 4 ≤ b.toNat) (rest : List Byte) :
    decodeCommand (b :: rest) = .illegal b rest := by
  refine feed_cons_of_illegal ?_ rest
  rw [feedByte, feedOpcode, opcodeOf_eq_none hb]

/-- Settles O5: the four opcodes by evaluation, the reserved bytes by their high bits. -/
theorem reservedOpcodesRejected : Obligations.ReservedOpcodesRejected :=
  ⟨by decide, by decide, by decide, by decide, fun _ rest hb => decodeCommand_reserved hb rest⟩

/-! ### Response and wire bytes -/

/-- Bit 7 of a wire byte picks the row, and the seven bits below it are its operand (R80 to R82). -/
theorem decodeWire_append (bit : BitVec 1) (low : BitVec 7) :
    decodeWire (bit ++ low) = if bit.msb then .ctl low else .pix low := by
  have hbit : (bit ++ low : BitVec (1 + 7)).msb = bit.msb := BitVec.msb_append.trans (if_neg (by decide))
  have hlow : (bit ++ low : BitVec (1 + 7)).extractLsb' 0 7 = low := BitVec.extractLsb'_append_eq_right
  calc decodeWire (bit ++ low)
      = if (bit ++ low : BitVec (1 + 7)).msb then .ctl ((bit ++ low : BitVec (1 + 7)).extractLsb' 0 7)
        else .pix ((bit ++ low : BitVec (1 + 7)).extractLsb' 0 7) := rfl
    _ = if bit.msb then .ctl low else .pix low := by rw [hbit, hlow]

/-- Every wire byte is the encoding of what it decodes to (R80). -/
theorem encode_decodeWire (b : Byte) : encode (decodeWire b) = [b] := by
  have hb := msb_append_extract b
  cases hm : b.msb <;> simpa [decodeWire, encode, hm] using hb

/-- A byte that decodes as a response is that response's code (R76). -/
theorem encode_of_decodeResponse {b : Byte} {i : Instr} (h : decodeResponse b = some i) : encode i = [b] := by
  simp only [decodeResponse] at h
  split_ifs at h with h0 h1 h2 h3 h4 h5 <;> cases h <;> subst b <;> rfl

/-- Settles O2: the response codes by evaluation, the wire bytes by bit 7 and the seven bits below it. -/
theorem responseAndWireRoundTrip : Obligations.ResponseAndWireRoundTrip := by
  refine ⟨fun i rest hi => ?_, encode_decodeWire, fun b i h => encode_of_decodeResponse h⟩
  cases i with
  | pack | packd | neg | tx => exact absurd rfl hi
  | rspOk | rspTeDisconnected | rspTeTimeout | rspTeWriteRejected | rspIllegalCmd | rspFbInvalid => rfl
  | pix p => exact congrArg some (decodeWire_append 0#1 p)
  | ctl c => exact congrArg some (decodeWire_append 1#1 c)

/-- Settles O4: the words are special cases of the round trips and of the rejection of reserved bytes. -/
theorem writtenOutWordsDecode : Obligations.WrittenOutWordsDecode := by
  refine ⟨?_, ?_, ?_, ?_, ?_, decodeCommand_reserved (by decide) [], decodeWire_append 0#1 0b1010101#7,
    decodeWire_append 1#1 0b0000011#7, rfl⟩
  · exact decodeCommand_encode (i := .pack [0x7F#8]) (by decide) rfl []
  · exact decodeCommand_encode (i := .pack []) (by decide) rfl []
  · exact decodeCommand_encode (i := .packd [0x11#8, 0x22#8] [0x33#8]) (by decide) rfl []
  · exact decodeCommand_encode (i := .neg) rfl rfl []
  · exact decodeCommand_encode (i := .tx) rfl rfl []

end Sys2Proof.Machine
end

section
/-! PROOFS. What the encoder puts on its ports: the response bytes, the writes handed to the Transport and the bytes of H
(spec/30_encoding.md R76, R81 to R83, spec/43_transmit.md R130 to R136). -/

namespace Sys2Proof.Machine

open Sys2Proof

/-! ### The response rows -/

/-- Every field after a fault: its FAULTS bit, HALT for ILLEGAL_CMD alone, its code, and the end of the command (R184). -/
theorem raise_eq (c : Cause) (s : State) :
    raise c s = { s with
      faults := s.faults ||| 1#5 <<< causeBit c, halt := s.halt || decide (c = .illegalCmd),
      rspOut := s.rspOut ++ [causeCode c], busy := false, txs := Sequencer.idle, dec := .boundary } := by
  have hhalt : haltAfter s.halt c = (s.halt || decide (c = .illegalCmd)) := by cases c <;> simp [haltAfter]
  rw [← hhalt]
  rfl

/-- Every field after RSP_OK, in the form of a fault that sets no bit (R76). -/
theorem respond_okCode_eq (s : State) :
    respond okCode s = { s with
      faults := s.faults ||| 0#5, halt := s.halt || false, rspOut := s.rspOut ++ [okCode], busy := false,
      txs := Sequencer.idle, dec := .boundary } := by
  rw [BitVec.or_zero, Bool.or_false]
  rfl

/-- Settles O35: RSP_OK ends the command, and each other row raises its fault. -/
theorem responseRows : Obligations.ResponseRows := by
  intro i bit code halts s hrow
  simp only [List.mem_cons, List.not_mem_nil, or_false, Prod.mk.injEq] at hrow
  obtain ⟨rfl, rfl, rfl, rfl⟩ | ⟨rfl, rfl, rfl, rfl⟩ | ⟨rfl, rfl, rfl, rfl⟩ | ⟨rfl, rfl, rfl, rfl⟩ |
    ⟨rfl, rfl, rfl, rfl⟩ | ⟨rfl, rfl, rfl, rfl⟩ := hrow
  · exact congrArg Host.Outcome.next (respond_okCode_eq s)
  · exact congrArg Host.Outcome.next (raise_eq .teDisconnected s)
  · exact congrArg Host.Outcome.next (raise_eq .teTimeout s)
  · exact congrArg Host.Outcome.next (raise_eq .teWriteRejected s)
  · exact congrArg Host.Outcome.next (raise_eq .illegalCmd s)
  · exact congrArg Host.Outcome.next (raise_eq .fbInvalid s)

/-! ### How a command ends -/

/-- From `s` to `t` the command has ended, with one response byte of R76. -/
structure CommandEnded (s t : State) : Prop where
  idle : t.busy = false
  response : ∃ code : Byte, code.toNat ≤ 5 ∧ t.rspOut = s.rspOut ++ [code]

/-- From `s` to `t` a TX has come to a write that the Transport has not answered, without a response (R134). -/
structure TransmitWaits (s t : State) : Prop where
  busy : t.busy = s.busy
  active : t.txs.active = true
  silent : t.answers = []
  response : t.rspOut = s.rspOut

theorem causeCode_le (c : Cause) : (causeCode c).toNat ≤ 5 := by cases c <;> decide

theorem respond_okCode_ended {s u : State} (h : u.rspOut = s.rspOut) : CommandEnded s (respond okCode u) :=
  ⟨rfl, okCode, by decide, by rw [respond_rspOut, h]⟩

theorem raise_ended {s u : State} (h : u.rspOut = s.rspOut) (c : Cause) : CommandEnded s (raise c u) :=
  ⟨rfl, causeCode c, causeCode_le c, by rw [raise_rspOut, h]⟩

/-- The loop over the segments ends the command or waits for an answer (R132, R134, R136). -/
theorem sendSegs_ended_or_waits (ss : List (List Byte)) {s : State} (ha : s.txs.active = true) :
    CommandEnded s (sendSegs ss s) ∨ TransmitWaits s (sendSegs ss s) := by
  induction ss generalizing s with
  | nil => exact .inl (respond_okCode_ended rfl)
  | cons seg later ih =>
    obtain h | ⟨as, h⟩ | ⟨kind, n, as, h⟩ := answers_cases s
    · rw [sendSegs_of_silent h]
      exact .inr ⟨rfl, ha, h, rfl⟩
    · rw [sendSegs_of_ok h]
      exact (ih rfl).imp (fun hend => ⟨hend.idle, hend.response⟩)
        fun hwait => ⟨hwait.busy, hwait.active, hwait.silent, hwait.response⟩
    · rw [sendSegs_of_fail h]
      refine .inl (raise_ended ?_ _)
      rfl

/-- A command ends with its response, but for a TX that waits for the Transport (R76, R134). -/
theorem exec_ended_or_waits {i : Instr} {s t : State} (hi : i.space = .cmd) (h : exec i s = .next t) :
    CommandEnded s t ∨ (i = .tx ∧ TransmitWaits (startTx s) t) := by
  cases i with
  | pack | packd =>
    obtain ⟨-, ht⟩ := withLayout_next.1 h
    cases ht
    exact .inl (respond_okCode_ended rfl)
  | neg =>
    obtain ⟨-, ht⟩ := withLayout_next.1 h
    split at ht <;> cases ht
    · exact .inl (respond_okCode_ended rfl)
    · exact .inl (raise_ended rfl _)
  | tx =>
    obtain ⟨-, ht⟩ := withLayout_next.1 h
    split at ht <;> cases ht
    · have hstart : (startTx s).txs.active = true := rfl
      exact (sendSegs_ended_or_waits (stateSegs s) hstart).imp (fun hend => ⟨hend.idle, hend.response⟩)
        fun hwait => ⟨rfl, hwait⟩
    · exact .inl (raise_ended rfl _)
  | rspOk | rspTeDisconnected | rspTeTimeout | rspTeWriteRejected | rspIllegalCmd | rspFbInvalid | pix | ctl =>
    cases hi

/-- Settles O37: BUSY is set by the start of a TX and stays set while it waits. -/
theorem oneResponsePerCommand : Obligations.OneResponsePerCommand := by
  intro i s t hi h
  obtain hend | ⟨htx, hwait⟩ := exec_ended_or_waits hi h
  · exact .inl ⟨hend.idle, hend.response⟩
  · exact .inr ⟨htx, hwait.busy, hwait.active, hwait.silent, hwait.response⟩

/-! ### The port records -/

theorem CommandEnded.responseInv {s t : State} (h : CommandEnded s t) (hs : ResponseInv s) : ResponseInv t := by
  obtain ⟨code, hcode, hrsp⟩ := h.response
  intro b hb
  rw [hrsp] at hb
  obtain hb | hb := List.mem_append.1 hb
  · exact hs b hb
  · rw [List.mem_singleton.1 hb]
    exact hcode

theorem ResponseInv.congr {s t : State} (hs : ResponseInv s) (h : t.rspOut = s.rspOut) : ResponseInv t := by
  rw [ResponseInv, h]
  exact hs

theorem sendSegs_responseInv (ss : List (List Byte)) {s : State} (ha : s.txs.active = true) (hs : ResponseInv s) :
    ResponseInv (sendSegs ss s) := by
  obtain hend | hwait := sendSegs_ended_or_waits ss ha
  · exact hend.responseInv hs
  · exact hs.congr hwait.response

/-- A command leaves only responses of R76 on the response port. -/
theorem exec_responseInv {i : Instr} {s t : State} (hi : i.space = .cmd) (hs : ResponseInv s)
    (h : exec i s = .next t) : ResponseInv t := by
  obtain hend | ⟨-, hwait⟩ := exec_ended_or_waits hi h
  · exact hend.responseInv hs
  · exact hs.congr hwait.response

/-- No segment is empty (R131). -/
theorem ne_nil_of_mem_stateSegs {s : State} {seg : List Byte} (h : seg ∈ stateSegs s) : seg ≠ [] := by
  have hkept := List.of_mem_filter h
  simpa using hkept

theorem handOver_writesInv {s : State} {seg : List Byte} (hs : WritesInv s) (hseg : seg ≠ []) :
    WritesInv (handOver seg s) := by
  intro w hw
  rw [handOver_writes] at hw
  split at hw
  · obtain hw | hw := List.mem_append.1 hw
    · exact hs w hw
    · rwa [List.mem_singleton.1 hw]
  · exact hs w hw

/-- The loop hands over its segments and nothing else (R131). -/
theorem sendSegs_writesInv {ss : List (List Byte)} (hss : ∀ seg ∈ ss, seg ≠ []) {s : State} (hs : WritesInv s) :
    WritesInv (sendSegs ss s) := by
  induction ss generalizing s with
  | nil => exact hs
  | cons seg later ih =>
    obtain ⟨hseg, hlater⟩ := List.forall_mem_cons.1 hss
    have hwritten := handOver_writesInv hs hseg
    obtain h | ⟨as, h⟩ | ⟨kind, n, as, h⟩ := answers_cases s
    · rw [sendSegs_of_silent h]
      exact hwritten
    · rw [sendSegs_of_ok h]
      exact ih hlater hwritten
    · rw [sendSegs_of_fail h]
      exact hwritten

theorem exec_writesInv {i : Instr} {s t : State} (hs : WritesInv s) (h : exec i s = .next t) : WritesInv t := by
  cases exec_next_cases h with
  | ended | fault | stored | received => exact hs
  | transmit => exact sendSegs_writesInv (fun _ => ne_nil_of_mem_stateSegs) (s := startTx s) hs

/-- Settles O55: the pins and the device leave both records alone, a TX writes its segments, and every end of a command
adds one response. -/
theorem stepKeepsPortRecords : Obligations.StepKeepsPortRecords := by
  intro s t hrsp hwrites h
  obtain ⟨-, hcase⟩ := step_next_iff.1 h
  cases hcase with
  | powerUp | device | keep | reset => exact ⟨hrsp, hwrites⟩
  | resume _ _ _ _ ha _ =>
    exact ⟨sendSegs_responseInv _ ha hrsp,
      sendSegs_writesInv (fun _ hseg => ne_nil_of_mem_stateSegs (List.mem_of_mem_drop hseg)) hwrites⟩
  | command _ _ i rest _ hf ht =>
    exact ⟨exec_responseInv (s := bytesTaken .boundary rest s) (feed_done_space hf) hrsp ht,
      exec_writesInv (s := bytesTaken .boundary rest s) hwrites ht⟩
  | illegal _ _ _ rest _ => exact ⟨(raise_ended rfl .illegalCmd).responseInv hrsp, hwrites⟩

/-! ### The bytes of H -/

/-- What the loop adds to H is a beginning of the bytes of its segments (R130, R136). -/
theorem sendSegs_sink (ss : List (List Byte)) (s : State) :
    ∃ sent, sent <+: ss.flatten ∧ (sendSegs ss s).sink = s.sink ++ sent := by
  induction ss generalizing s with
  | nil => exact ⟨[], List.prefix_rfl, (List.append_nil _).symm⟩
  | cons seg later ih =>
    rw [List.flatten_cons]
    obtain h | ⟨as, h⟩ | ⟨kind, n, as, h⟩ := answers_cases s
    · rw [sendSegs_of_silent h]
      exact ⟨[], List.nil_prefix, (List.append_nil _).symm⟩
    · rw [sendSegs_of_ok h]
      obtain ⟨sent, hsent, hsink⟩ := ih _
      refine ⟨seg ++ sent, (List.prefix_append_right_inj seg).2 hsent, ?_⟩
      rw [hsink, List.append_assoc]
    · rw [sendSegs_of_fail h]
      exact ⟨seg.take n, (List.take_prefix n seg).trans (List.prefix_append ..), rfl⟩

/-- Every byte of a Frame's segments is a cell within the mask or a byte of a control sequence (R81 to R83, R130). -/
theorem wireByte_of_mem_segs {layout : Layout} {f : List Byte} (hf : IsFrame layout f) {seg : List Byte}
    (hseg : seg ∈ segs layout f) {b : Byte} (hb : b ∈ seg) : WireByte layout b := by
  obtain ⟨-, hcell⟩ := isFrame_iff.1 hf
  have hkept := List.mem_of_mem_filter hseg
  simp only [List.mem_append, List.mem_cons, List.not_mem_nil, or_false] at hkept
  obtain (rfl | rfl) | hrow2 := hkept
  · exact .inr (.inl hb)
  · exact .inl (hcell b (List.mem_of_mem_take hb))
  · split at hrow2
    · simp only [List.mem_cons, List.not_mem_nil, or_false] at hrow2
      obtain rfl | rfl := hrow2
      · exact .inr (.inr hb)
      · exact .inl (hcell b (List.mem_of_mem_drop (List.mem_of_mem_take hb)))
    · cases hrow2

/-- H with bytes of the configured classes added has no others. -/
theorem SinkInv.of_append {s t : State} (hs : SinkInv s) {sent : List Byte} (hparams : t.params = s.params)
    (hsink : t.sink = s.sink ++ sent) (hsent : ∀ b ∈ sent, WireByte s.params.layout b) : SinkInv t := by
  rw [SinkInv, hparams, hsink]
  exact List.forall_mem_append.2 ⟨hs, hsent⟩

/-- A loop over some of the segments of a Frame in FB keeps to the configured classes. -/
theorem sendSegs_sinkInv {ss : List (List Byte)} {s : State} (hs : SinkInv s)
    (hf : IsFrame s.params.layout s.fb) (hss : ss ⊆ stateSegs s) : SinkInv (sendSegs ss s) := by
  obtain ⟨sent, hsent, hsink⟩ := sendSegs_sink ss s
  refine hs.of_append (sendSegs_encoderOnly ss s).params hsink fun b hb => ?_
  obtain ⟨seg, hseg, hbseg⟩ := List.mem_flatten.1 (hsent.subset hb)
  exact wireByte_of_mem_segs hf (hss hseg) hbseg

theorem exec_sinkInv {i : Instr} {s t : State} (hframe : FrameInv s) (hs : SinkInv s) (h : exec i s = .next t) :
    SinkInv t := by
  cases exec_next_cases h with
  | ended | fault | stored | received => exact hs
  | transmit hv => exact sendSegs_sinkInv (s := startTx s) hs (hframe.2 hv) (List.Subset.refl _)

/-- A reset in mid-write adds a beginning of the segment the TX stood at (R201). -/
theorem takeReset_sinkInv (n : Nat) {s : State} (hs : SinkInv s)
    (hf : s.txs.active = true → IsFrame s.params.layout s.fb) : SinkInv (takeReset n s) := by
  refine hs.of_append (t := takeReset n s) rfl rfl fun b hb => ?_
  split at hb
  · rename_i ha
    have hbseg := List.mem_of_mem_take hb
    by_cases hlt : s.txs.seg < (stateSegs s).length
    · rw [List.getD_eq_getElem _ _ hlt] at hbseg
      exact wireByte_of_mem_segs (hf ha) (List.getElem_mem hlt) hbseg
    · rw [List.getD_eq_default _ _ (Nat.le_of_not_lt hlt)] at hbseg
      cases hbseg
  · cases hb

/-- Settles O53: only a TX and a reset during one add to H, and both send segments of a valid frame. -/
theorem stepKeepsWireBytes : Obligations.StepKeepsWireBytes := by
  intro s t hframe hcontrol hs h
  have hsending : s.txs.active = true → IsFrame s.params.layout s.fb :=
    fun ha => hframe.2 (hcontrol.active_valid ha).1
  obtain ⟨-, hcase⟩ := step_next_iff.1 h
  cases hcase with
  | powerUp => exact nofun
  | device | keep | illegal => exact hs
  | reset n _ _ => exact takeReset_sinkInv n hs hsending
  | resume _ _ _ _ ha _ => exact sendSegs_sinkInv hs (hsending ha) (List.drop_subset _ _)
  | command _ _ i rest _ _ ht => exact exec_sinkInv (s := bytesTaken .boundary rest s) hframe hs ht

end Sys2Proof.Machine
end

section
/-! PROOFS. The GlyphTable (spec/40_glyphtable.md): what `lookup` gives for each kind of character, and how
`encodeString` splits at a place between two characters. -/

namespace Sys2Proof.Machine

open Sys2Proof

/-! ### The glyph of a character -/

@[simp] theorem lookup_space (table : GlyphTable) : lookup table ' ' = table.space := if_pos rfl

/-- Away from the space character only the keys and the fallback count. -/
theorem lookup_of_ne_space (table : GlyphTable) {ch : Char} (hch : ch ≠ ' ') :
    lookup table ch = (table.glyphs.lookup ch).getD table.fallback := if_neg hch

theorem lookup_of_key {table : GlyphTable} {ch : Char} {cols : List Byte} (hch : ch ≠ ' ')
    (hkey : table.glyphs.lookup ch = some cols) : lookup table ch = cols := by
  rw [lookup_of_ne_space table hch, hkey, Option.getD_some]

theorem lookup_of_not_key {table : GlyphTable} {ch : Char} (hch : ch ≠ ' ') (hno : ∀ g ∈ table.glyphs, g.1 ≠ ch) :
    lookup table ch = table.fallback := by
  have hnone : table.glyphs.lookup ch = none :=
    List.lookup_eq_none_iff.2 fun g hg => bne_iff_ne.2 (hno g hg).symm
  rw [lookup_of_ne_space table hch, hnone, Option.getD_none]

/-- Settles O57: the space character, a key and any other character are the three branches of `lookup`. -/
theorem lookupNeverFails : Obligations.LookupNeverFails :=
  ⟨lookup_space, fun _ _ _ => lookup_of_key, fun _ _ => lookup_of_not_key⟩

/-! ### The encoding of a string -/

@[simp] theorem length_rep (d : List Byte) (r : Nat) : (rep d r).length = r * d.length := by
  simp [rep]

section
variable (table : GlyphTable) (d : List Byte) (r : Nat)

@[simp] theorem encodeString_nil : encodeString table d r [] = [] := rfl

@[simp] theorem encodeString_singleton (c : Char) : encodeString table d r [c] = lookup table c := rfl

/-- A character that is not the last has its delimiters after it. -/
theorem encodeString_cons (c : Char) {s : List Char} (hs : s ≠ []) :
    encodeString table d r (c :: s) = lookup table c ++ rep d r ++ encodeString table d r s := by
  cases s with
  | nil => exact absurd rfl hs
  | cons c' later => rfl

/-- One group of delimiters stands where two strings meet, and neither string's bytes change. -/
theorem encodeString_append {s s' : List Char} (hs : s ≠ []) (hs' : s' ≠ []) :
    encodeString table d r (s ++ s') = encodeString table d r s ++ rep d r ++ encodeString table d r s' := by
  induction s with
  | nil => exact absurd rfl hs
  | cons c s ih =>
    by_cases hlater : s = []
    · subst hlater
      exact encodeString_cons table d r c hs'
    · rw [List.cons_append, encodeString_cons table d r c (List.append_ne_nil_of_left_ne_nil hlater s'), ih hlater,
        encodeString_cons table d r c hlater]
      simp only [List.append_assoc]

/-- The glyphs of all characters, and the delimiters of all characters but the last (R103). -/
theorem length_encodeString_cons (c : Char) (s : List Char) :
    (encodeString table d r (c :: s)).length =
      ((c :: s).map fun c => (lookup table c).length).sum + s.length * r * d.length := by
  induction s generalizing c with
  | nil => simp
  | cons c' later ih =>
    rw [encodeString_cons table d r c (List.cons_ne_nil c' later), List.length_append, List.length_append, ih c',
      length_rep]
    simp only [List.map_cons, List.sum_cons, List.length_cons]
    ring

/-- The last glyph is never trimmed (R103). -/
theorem encodeString_ends_in_last_glyph (s : List Char) (c : Char) :
    ∃ before, encodeString table d r (s ++ [c]) = before ++ lookup table c := by
  by_cases hs : s = []
  · subst hs
    exact ⟨[], rfl⟩
  · exact ⟨_, encodeString_append table d r hs (List.cons_ne_nil c [])⟩

end

/-- Settles O58: the length by induction on the string, the end by splitting it before its last character. -/
theorem encodedStringLength : Obligations.EncodedStringLength := by
  intro table d r
  refine ⟨encodeString_nil table d r, fun s hs => ?_, encodeString_ends_in_last_glyph table d r⟩
  obtain ⟨c, later, rfl⟩ := List.exists_cons_of_ne_nil hs
  exact length_encodeString_cons table d r c later

end Sys2Proof.Machine
end

section
/-! PROOFS. The mask as arithmetic (spec/10_state.md R26, spec/41_pack.md R118, spec/42_negative.md R128). -/

namespace Sys2Proof.Machine

open Sys2Proof

/-- A byte has at most 7 significant bits and the break lies within the buffer (R25, R26). -/
theorem layoutWf_bounds {layout : Layout} (h : LayoutWF layout) : layout.B ≤ layout.L ∧ layout.K ≤ 7 := by
  simp only [LayoutWF, layoutWf, Bool.and_eq_true, decide_eq_true_eq] at h
  obtain ⟨⟨⟨⟨⟨⟨⟨-, hB⟩, -⟩, hK⟩, -⟩, -⟩, -⟩, -⟩ := h
  exact ⟨hB, hK⟩

theorem two_pow_K_le {layout : Layout} (hw : LayoutWF layout) : 2 ^ layout.K ≤ 2 ^ 7 :=
  Nat.pow_le_pow_right (by decide) (layoutWf_bounds hw).2

/-- The mask is the value that R26 computes: it fits a byte. -/
theorem mask_toNat {layout : Layout} (hw : LayoutWF layout) : (mask layout).toNat = 2 ^ layout.K - 1 := by
  have hpow := two_pow_K_le hw
  rw [mask, BitVec.toNat_ofNat]
  omega

theorem toNat_and_mask {layout : Layout} (hw : LayoutWF layout) (b : Byte) :
    (b &&& mask layout).toNat = b.toNat % 2 ^ layout.K := by
  rw [BitVec.toNat_and, mask_toNat hw, Nat.and_two_pow_sub_one_eq_mod]

theorem and_mask_le (layout : Layout) (b : Byte) : (b &&& mask layout).toNat ≤ (mask layout).toNat := by
  rw [BitVec.toNat_and]
  exact Nat.and_le_right

/-- A value within the mask is a pixel byte: bit 7 is clear (R113 (b)). -/
theorem msb_of_le_mask {layout : Layout} (hw : LayoutWF layout) {b : Byte} (hb : b.toNat ≤ (mask layout).toNat) :
    b.msb = false := by
  have hpow := two_pow_K_le hw
  rw [mask_toNat hw] at hb
  rw [BitVec.msb_eq_false_iff_two_mul_lt]
  omega

/-- Settles O16: `~b` is `255 - b`, and 256 is a multiple of `2^K`, so the remainder is that of `2^K - 1 - b`. -/
theorem maskArithmetic : Obligations.MaskArithmetic := by
  intro layout hw b
  refine ⟨toNat_and_mask hw b, fun hb => ?_⟩
  have hpow := two_pow_K_le hw
  have hpos : 0 < 2 ^ layout.K := Nat.two_pow_pos _
  have hdvd : 2 ^ layout.K ∣ 2 ^ 8 := pow_dvd_pow 2 (Nat.le_succ_of_le (layoutWf_bounds hw).2)
  obtain ⟨q, hq⟩ : 2 ^ layout.K ∣ 2 ^ 8 - 2 ^ layout.K := Nat.dvd_sub hdvd dvd_rfl
  rw [mask_toNat hw] at hb ⊢
  calc (~~~b &&& mask layout).toNat
      = (2 ^ 8 - 1 - b.toNat) % 2 ^ layout.K := by rw [toNat_and_mask hw, BitVec.toNat_not]
    _ = (2 ^ layout.K - 1 - b.toNat + 2 ^ layout.K * q) % 2 ^ layout.K := by congr 1; omega
    _ = 2 ^ layout.K - 1 - b.toNat := by rw [Nat.add_mul_mod_self_left, Nat.mod_eq_of_lt (by omega)]

end Sys2Proof.Machine
end

section
/-! PROOFS. The packer (spec/41_pack.md R110 to R116): the one cell that each column goes to, and that the cells
determine the frame. A column past the input counts as 0, so the input's length needs no case of its own. -/

namespace Sys2Proof.Machine

open Sys2Proof

/-! ### The remap -/

/-- Without a remap a logical index is its wire position (R27). -/
theorem remapOf_of_absent {layout : Layout} (h : layout.remapEn = false) (i : Nat) : remapOf layout i = i := by
  simp [remapOf, h]

/-- A frame is determined by its cells at the wire positions of the logical indices. -/
theorem frame_ext {layout : Layout} (hw : LayoutWF layout) {f g : List Byte} (hf : f.length = layout.L)
    (hg : g.length = layout.L) (h : ∀ i, i < layout.L → f[remapOf layout i]? = g[remapOf layout i]?) : f = g := by
  obtain ⟨-, -, hsurj, -⟩ := remapIsBijection layout hw
  refine List.ext_getElem? fun j => ?_
  by_cases hj : j < layout.L
  · obtain ⟨i, hi, rfl⟩ := hsurj j hj
    exact h i hi
  · rw [List.getElem?_eq_none (by omega), List.getElem?_eq_none (by omega)]

/-- The wire positions of row 2 are those of the logical indices from `B` on, where the remap keeps the regions. -/
theorem RegionPreserving.le_remapOf_iff {layout : Layout} (hr : RegionPreserving layout) (hw : LayoutWF layout)
    {i : Nat} (hi : i < layout.L) : layout.B ≤ remapOf layout i ↔ layout.B ≤ i := by
  obtain ⟨hkeep, honto⟩ := hr
  obtain ⟨-, hinj, -⟩ := remapIsBijection layout hw
  have hB := (layoutWf_bounds hw).1
  refine ⟨fun h => ?_, fun h => ?_⟩
  · by_contra hlt
    have := hkeep i (by omega)
    omega
  · by_contra hlt
    obtain ⟨i', hi', heq⟩ := honto (remapOf layout i) (by omega)
    have := hinj i' i (by omega) hi heq
    omega

/-! ### The loop over the columns -/

/-- The loop leaves alone every position that is the destination of none of its columns. -/
theorem storeCols_getElem?_of_ne {layout : Layout} {p : Nat} (i : Nat) (cols f : List Byte)
    (hp : ∀ j, j < cols.length → remapOf layout (i + j) ≠ p) : (storeCols layout i cols f)[p]? = f[p]? := by
  induction cols generalizing i f with
  | nil => rfl
  | cons c cols ih =>
    have hlater : ∀ j, j < cols.length → remapOf layout (i + 1 + j) ≠ p := fun j hj => by
      rw [Nat.add_right_comm]
      exact hp (j + 1) (Nat.succ_lt_succ hj)
    exact (ih _ _ hlater).trans (List.getElem?_set_ne (hp 0 (Nat.succ_pos _)))

/-- A column stays where the loop put it: no later column has its destination (R59 (a)). -/
theorem storeCols_getElem?_stored {layout : Layout} (hw : LayoutWF layout) {i : Nat} {cols f : List Byte}
    (hf : f.length = layout.L) (hfits : i + cols.length ≤ layout.L) {j : Nat} (hj : j < cols.length) :
    (storeCols layout i cols f)[remapOf layout (i + j)]? = some (cols[j] &&& mask layout) := by
  obtain ⟨hrange, hinj, -⟩ := remapIsBijection layout hw
  induction cols generalizing i j f with
  | nil => exact absurd hj (Nat.not_lt_zero j)
  | cons c cols ih =>
    rw [List.length_cons] at hfits hj
    cases j with
    | zero =>
      have hlater : ∀ k, k < cols.length → remapOf layout (i + 1 + k) ≠ remapOf layout i := fun k hk heq => by
        have := hinj _ _ (by omega) (by omega) heq
        omega
      have hin : remapOf layout i < f.length := hf ▸ hrange i (by omega)
      exact (storeCols_getElem?_of_ne _ _ _ hlater).trans (List.getElem?_set_self hin)
    | succ j =>
      have hset : (f.set (remapOf layout i) (c &&& mask layout)).length = layout.L := by rw [List.length_set, hf]
      have hstored := ih hset (i := i + 1) (by omega) (j := j) (by omega)
      rwa [Nat.add_right_comm] at hstored

/-! ### The cells of the packed frame -/

@[simp] theorem pack_length (layout : Layout) (cols : List Byte) : (pack layout cols).length = layout.L := by
  simp [pack]

/-- The cell of a logical index is its column under the mask, where a column past the input is 0 (R110). -/
theorem pack_getElem?_remapOf {layout : Layout} (hw : LayoutWF layout) (cols : List Byte) {i : Nat}
    (hi : i < layout.L) : (pack layout cols)[remapOf layout i]? = some (cols[i]?.getD 0#8 &&& mask layout) := by
  obtain ⟨hrange, hinj, -⟩ := remapIsBijection layout hw
  have hlen : (cols.take layout.L).length = min layout.L cols.length := List.length_take
  by_cases hic : i < cols.length
  · have hstored := storeCols_getElem?_stored hw (i := 0) (cols := cols.take layout.L) (zeros_length layout.L)
      (by omega) (j := i) (by omega)
    simpa [pack, hic] using hstored
  · have hnone : ∀ j, j < (cols.take layout.L).length → remapOf layout (0 + j) ≠ remapOf layout i := fun j hj heq => by
      have := hinj _ _ (by omega) hi heq
      omega
    rw [pack, storeCols_getElem?_of_ne 0 _ _ hnone]
    simp [zeros, hrange i hi, List.getElem?_eq_none (Nat.le_of_not_lt hic)]

/-- Every byte of a packed frame is a masked one. -/
theorem eq_and_mask_of_mem_pack {layout : Layout} (hw : LayoutWF layout) {cols : List Byte} {b : Byte}
    (hb : b ∈ pack layout cols) : ∃ c, b = c &&& mask layout := by
  obtain ⟨-, -, hsurj, -⟩ := remapIsBijection layout hw
  obtain ⟨j, hj, rfl⟩ := List.mem_iff_getElem.1 hb
  obtain ⟨i, hi, rfl⟩ := hsurj j (by simpa using hj)
  exact ⟨_, Option.some.inj ((List.getElem?_eq_getElem hj).symm.trans (pack_getElem?_remapOf hw cols hi))⟩

/-- Two inputs with the same masked columns below `L` pack to the same frame. -/
theorem pack_congr {layout : Layout} (hw : LayoutWF layout) {cols cols' : List Byte}
    (h : ∀ i, i < layout.L → cols[i]?.getD 0#8 &&& mask layout = cols'[i]?.getD 0#8 &&& mask layout) :
    pack layout cols = pack layout cols' :=
  frame_ext hw (pack_length ..) (pack_length ..) fun i hi => by
    rw [pack_getElem?_remapOf hw cols hi, pack_getElem?_remapOf hw cols' hi, h i hi]

/-- Zeros after the input fill the places up to their end. -/
theorem getElem?_append_zeros (cols : List Byte) {k i : Nat} (hi : i < cols.length + k) :
    (cols ++ zeros k)[i]? = some (cols[i]?.getD 0#8) := by
  by_cases hin : i < cols.length
  · rw [List.getElem?_append_left hin, List.getElem?_eq_getElem hin, Option.getD_some]
  · rw [List.getElem?_append_right (Nat.le_of_not_lt hin), List.getElem?_eq_none (Nat.le_of_not_lt hin), zeros,
      List.getElem?_replicate_of_lt (by omega), Option.getD_none]

/-- Zeros after the input change no column. -/
theorem getElem?_append_zeros_getD (cols : List Byte) (k i : Nat) :
    (cols ++ zeros k)[i]?.getD 0#8 = cols[i]?.getD 0#8 := by
  by_cases hi : i < cols.length + k
  · rw [getElem?_append_zeros cols hi, Option.getD_some]
  · rw [List.getElem?_eq_none (by rw [List.length_append, zeros_length]; omega),
      List.getElem?_eq_none (by omega)]

/-- Masking a column twice is masking it once, and masking a column past the input leaves it 0. -/
theorem getElem?_map_mask_getD (layout : Layout) (cols : List Byte) (i : Nat) :
    (cols.map fun c => c &&& mask layout)[i]?.getD 0#8 = cols[i]?.getD 0#8 &&& mask layout := by
  rw [List.getElem?_map]
  cases cols[i]? with
  | none => exact BitVec.zero_and.symm
  | some c => rfl

/-- Without a remap `pack` is masking and padding (R113 (f)). -/
theorem pack_of_absent_remap {layout : Layout} (hw : LayoutWF layout) (hen : layout.remapEn = false)
    (cols : List Byte) :
    pack layout cols =
      ((cols.take layout.L).map fun c => c &&& mask layout) ++ zeros (layout.L - min cols.length layout.L) := by
  have hlen : ((cols.take layout.L).map fun c => c &&& mask layout).length +
      (layout.L - min cols.length layout.L) = layout.L := by
    rw [List.length_map, List.length_take]
    omega
  refine frame_ext hw (pack_length ..) (by rw [List.length_append, zeros_length, hlen]) fun i hi => ?_
  rw [pack_getElem?_remapOf hw cols hi, remapOf_of_absent hen, getElem?_append_zeros _ (by rwa [hlen]),
    getElem?_map_mask_getD, List.getElem?_take_of_lt hi]

/-- Settles O9: both clauses are the cell of a logical index, with its column in the input or past its end. -/
theorem packCells : Obligations.PackCells := by
  intro layout hw cols
  refine ⟨pack_length layout cols, fun i c hi hc => ?_, fun i hlen hi => ?_⟩
  · rw [pack_getElem?_remapOf hw cols (by omega), hc, Option.getD_some]
  · rw [pack_getElem?_remapOf hw cols hi, List.getElem?_eq_none (by omega), Option.getD_none, BitVec.zero_and]

/-- Settles O10: (b) is that cells are masked, (c) the cells past the input, (d) and (e) that the frame depends on the
masked columns below `L` alone. -/
theorem packProperties : Obligations.PackProperties := by
  intro layout hw cols
  obtain ⟨hlength, -, hpast⟩ := packCells layout hw cols
  refine ⟨hlength, fun b hb => ?_, fun hshort i hi => hpast i (by omega), pack_congr hw fun i hi => ?_,
    fun k => pack_congr hw fun i hi => ?_, pack_congr hw fun i hi => ?_, fun hen => pack_of_absent_remap hw hen cols⟩
  · obtain ⟨c, rfl⟩ := eq_and_mask_of_mem_pack hw hb
    exact ⟨and_mask_le layout c, msb_of_le_mask hw (and_mask_le layout c)⟩
  · rw [List.getElem?_take_of_lt hi]
  · rw [getElem?_append_zeros_getD]
  · rw [getElem?_map_mask_getD, BitVec.and_assoc, BitVec.and_self]

/-! ### The two parts of a dual frame -/

/-- A fitted part has every column of the operand below its length, and 0 past the operand. -/
theorem fit_getElem? (s : List Byte) {k i : Nat} (hi : i < k) : (fit s k)[i]? = some (s[i]?.getD 0#8) := by
  rw [fit, getElem?_append_zeros _ (by rw [List.length_take]; omega), List.getElem?_take_of_lt hi]

/-- Fitting cuts at the part's length, so cutting there before changes nothing (R115 (a), (b)). -/
theorem fit_take (s : List Byte) (k : Nat) : fit (s.take k) k = fit s k := by
  rw [fit, fit, List.take_take, List.length_take, Nat.min_self, Nat.min_comm k, Nat.min_assoc, Nat.min_self]

theorem fit_zero (s : List Byte) : fit s 0 = [] := List.eq_nil_of_length_eq_zero (fit_length s 0)

/-- An operand fitted to the whole buffer packs as it is. -/
theorem pack_fit {layout : Layout} (hw : LayoutWF layout) (s : List Byte) :
    pack layout (fit s layout.L) = pack layout s :=
  pack_congr hw fun i hi => by rw [fit_getElem? s hi, Option.getD_some]

theorem packDual_length (layout : Layout) (top bottom : List Byte) : (packDual layout top bottom).length = layout.L :=
  pack_length ..

section
variable {layout : Layout} (hw : LayoutWF layout) (top bottom : List Byte)
include hw

/-- Below `B` the columns are the top's (R114). -/
theorem packDual_getElem?_top {i : Nat} (hi : i < layout.B) :
    (packDual layout top bottom)[remapOf layout i]? = some (top[i]?.getD 0#8 &&& mask layout) := by
  have hB := (layoutWf_bounds hw).1
  rw [packDual, pack_getElem?_remapOf hw _ (by omega), List.getElem?_append_left (by rwa [fit_length]),
    fit_getElem? top hi, Option.getD_some]

/-- From `B` on the columns are the bottom's (R114). -/
theorem packDual_getElem?_bottom {j : Nat} (hj : j < layout.L - layout.B) :
    (packDual layout top bottom)[remapOf layout (layout.B + j)]? = some (bottom[j]?.getD 0#8 &&& mask layout) := by
  rw [packDual, pack_getElem?_remapOf hw _ (by omega), List.getElem?_append_right (by rw [fit_length]; omega),
    fit_length, Nat.add_sub_cancel_left, fit_getElem? bottom hj, Option.getD_some]

end

/-- Settles O11: in each part the cell of a logical index, with its column in the operand or past its end. -/
theorem packDualCells : Obligations.PackDualCells := by
  intro layout hw top bottom
  refine ⟨rfl, packDual_length layout top bottom, fun i c hi hc => ?_, fun i hlen hi => ?_, fun j c hj hc => ?_,
    fun j hlen hj => ?_⟩
  · rw [packDual_getElem?_top hw top bottom (by omega), hc, Option.getD_some]
  · rw [packDual_getElem?_top hw top bottom hi, List.getElem?_eq_none (by omega), Option.getD_none, BitVec.zero_and]
  · rw [packDual_getElem?_bottom hw top bottom (by omega), hc, Option.getD_some]
  · rw [packDual_getElem?_bottom hw top bottom hj, List.getElem?_eq_none (by omega), Option.getD_none,
      BitVec.zero_and]

/-- Settles O12: fitting cuts each operand at its part, and an empty part leaves the other the whole buffer. -/
theorem packDualParts : Obligations.PackDualParts := by
  intro layout hw top bottom
  refine ⟨?_, ?_, fun hB => ?_, fun hB => ?_⟩
  · rw [packDual, packDual, fit_take]
  · rw [packDual, packDual, fit_take]
  · rw [packDual, hB, Nat.sub_self, fit_zero, List.append_nil, pack_fit hw]
  · rw [packDual, hB, Nat.sub_zero, fit_zero, List.nil_append, pack_fit hw]

section
variable {layout : Layout} (hw : LayoutWF layout) (hr : RegionPreserving layout)
include hw hr

/-- Each position of the row-1 region is the destination of a top column (R116). -/
theorem packDual_take_eq (top bottom bottom' : List Byte) :
    (packDual layout top bottom).take layout.B = (packDual layout top bottom').take layout.B := by
  refine List.ext_getElem? fun p => ?_
  by_cases hp : p < layout.B
  · obtain ⟨i, hi, rfl⟩ := hr.2 p hp
    rw [List.getElem?_take_of_lt hp, List.getElem?_take_of_lt hp, packDual_getElem?_top hw top bottom hi,
      packDual_getElem?_top hw top bottom' hi]
  · rw [List.getElem?_take_eq_none (Nat.le_of_not_lt hp), List.getElem?_take_eq_none (Nat.le_of_not_lt hp)]

/-- Each position of the row-2 region is the destination of a bottom column (R116). -/
theorem packDual_drop_eq (top top' bottom : List Byte) :
    (packDual layout top bottom).drop layout.B = (packDual layout top' bottom).drop layout.B := by
  obtain ⟨-, -, hsurj, -⟩ := remapIsBijection layout hw
  refine List.ext_getElem? fun k => ?_
  rw [List.getElem?_drop, List.getElem?_drop]
  by_cases hk : layout.B + k < layout.L
  · obtain ⟨i, hi, hpos⟩ := hsurj _ hk
    have hBi : layout.B ≤ i := (hr.le_remapOf_iff hw hi).1 (by omega)
    obtain ⟨j, rfl⟩ := Nat.exists_eq_add_of_le hBi
    rw [← hpos, packDual_getElem?_bottom hw top bottom (by omega), packDual_getElem?_bottom hw top' bottom (by omega)]
  · rw [List.getElem?_eq_none (by rw [packDual_length]; omega), List.getElem?_eq_none (by rw [packDual_length]; omega)]

end

/-- Settles O13: the remap, a bijection that keeps the row-1 region, keeps the row-2 region too, so that each position
of a region is the destination of a column of its own operand. -/
theorem regionPreservingDual : Obligations.RegionPreservingDual := by
  refine ⟨fun layout hw hr => ?_, fun layout hen => ?_⟩
  · obtain ⟨hrange, -⟩ := remapIsBijection layout hw
    exact ⟨hr.1, fun i hBi hi => ⟨(hr.le_remapOf_iff hw hi).2 hBi, hrange i hi⟩, packDual_take_eq hw hr,
      packDual_drop_eq hw hr⟩
  · exact ⟨fun i hi => by rwa [remapOf_of_absent hen], fun j hj => ⟨j, hj, remapOf_of_absent hen j⟩⟩

/-! ### The commands PACK and PACKD -/

/-- Every field after a stored frame and RSP_OK (R111, R56). -/
theorem respond_storeFrame_eq (f : List Byte) (s : State) :
    respond okCode (storeFrame f s) = { s with
      fb := f, fbv := true, busy := false, txs := Sequencer.idle, dec := .boundary,
      rspOut := s.rspOut ++ [0x00#8] } := rfl

theorem exec_pack_of_wf {s : State} (hw : LayoutWF s.params.layout) (cols : List Byte) :
    exec (.pack cols) s = .next (respond okCode (storeFrame (pack s.params.layout cols) s)) :=
  withLayout_of_wf hw _

theorem exec_packd_of_wf {s : State} (hw : LayoutWF s.params.layout) (top bottom : List Byte) :
    exec (.packd top bottom) s = .next (respond okCode (storeFrame (packDual s.params.layout top bottom) s)) :=
  withLayout_of_wf hw _

/-- Settles O14: for a well-formed Layout both commands store their frame and respond. -/
theorem packCommands : Obligations.PackCommands :=
  ⟨fun cols s hw => by rw [exec_pack_of_wf hw, respond_storeFrame_eq],
    fun top bottom s hw => by rw [exec_packd_of_wf hw, respond_storeFrame_eq]⟩

end Sys2Proof.Machine
end

section
/-! PROOFS. Inverse video (spec/42_negative.md R125 to R127): complement and mask bit by bit, the double complement of a
cell, and what NEG does with a valid frame. -/

namespace Sys2Proof.Machine

open Sys2Proof

/-! ### Cells -/

/-- The mask has the K lowest bits (R26). -/
theorem mask_getLsbD {layout : Layout} (hw : LayoutWF layout) (i : Nat) :
    (mask layout).getLsbD i = decide (i < layout.K) := by
  have hK := (layoutWf_bounds hw).2
  rw [mask, BitVec.getLsbD_ofNat, Nat.testBit_two_pow_sub_one]
  by_cases hi : i < layout.K
  · simp [hi, show i < 8 by omega]
  · simp [hi]

/-- Below K the complement under the mask inverts a bit, and from K on it clears it (R125). -/
theorem complement_getLsbD {layout : Layout} (hw : LayoutWF layout) (b : Byte) (i : Nat) :
    (~~~b &&& mask layout).getLsbD i = (!b.getLsbD i && decide (i < layout.K)) := by
  have hK := (layoutWf_bounds hw).2
  rw [BitVec.getLsbD_and, BitVec.getLsbD_not, mask_getLsbD hw]
  by_cases hi : i < layout.K
  · simp [hi, show i < 8 by omega]
  · simp [hi]

/-- The complement of the complement is the masked cell (R127). -/
theorem complement_complement (layout : Layout) (b : Byte) :
    ~~~(~~~b &&& mask layout) &&& mask layout = b &&& mask layout := by
  ext i hi
  simp only [BitVec.getElem_and, BitVec.getElem_not]
  cases b[i] <;> cases (mask layout)[i] <;> rfl

/-- A cell is its part within the mask and its part outside; so a cell with nothing outside is unchanged by masking. -/
theorem and_mask_of_within {layout : Layout} {b : Byte} (hb : b &&& ~~~mask layout = 0#8) : b &&& mask layout = b := by
  calc b &&& mask layout = b &&& mask layout ||| b &&& ~~~mask layout := by rw [hb, BitVec.or_zero]
    _ = b := by
      ext i hi
      simp only [BitVec.getElem_or, BitVec.getElem_and, BitVec.getElem_not]
      cases b[i] <;> cases (mask layout)[i] <;> rfl

/-! ### Sequences -/

/-- Masking leaves a Frame as it is. -/
theorem map_mask_of_isFrame {layout : Layout} {f : List Byte} (hf : IsFrame layout f) :
    (f.map fun b => b &&& mask layout) = f := by
  obtain ⟨-, hcell⟩ := isFrame_iff.1 hf
  calc (f.map fun b => b &&& mask layout) = f.map id := List.map_congr_left fun b hb => and_mask_of_within (hcell b hb)
    _ = f := List.map_id f

/-- The double complement of any sequence is its masking (R127). -/
theorem negative_negative (layout : Layout) (f : List Byte) :
    negative layout (negative layout f) = f.map fun b => b &&& mask layout := by
  rw [negative, negative, List.map_map]
  exact List.map_congr_left fun b _ => complement_complement layout b

theorem negative_negative_of_isFrame {layout : Layout} {f : List Byte} (hf : IsFrame layout f) :
    negative layout (negative layout f) = f := by
  rw [negative_negative, map_mask_of_isFrame hf]

/-- Settles O15: the result is a Frame whatever the cells are, and each bit of a cell is below K or not. -/
theorem negativeCells : Obligations.NegativeCells := by
  intro layout hw f hf
  refine ⟨negative_isFrame hf, fun j b hb => ⟨?_, fun i hi => ?_, fun i hi => ?_⟩⟩
  · rw [negative, List.getElem?_map, hb, Option.map_some]
  · rw [complement_getLsbD hw, decide_eq_true hi, Bool.and_true]
  · rw [complement_getLsbD hw, decide_eq_false (Nat.not_lt.2 hi), Bool.and_false]

/-! ### The command NEG -/

/-- NEG with a valid frame complements the frame register and responds (R126). -/
theorem exec_neg_of_valid {s : State} (hw : LayoutWF s.params.layout) (hv : s.fbv = true) :
    exec .neg s = .next (respond okCode { s with fb := negative s.params.layout s.fb }) :=
  (withLayout_of_wf hw _).trans (if_pos hv)

/-- Settles O18: the response leaves every field but those of R76 as NEG left it. -/
theorem negCommand : Obligations.NegCommand := by
  intro s hw hv
  rw [exec_neg_of_valid hw hv]
  rfl

/-- Settles O17: a Frame is its own masking, and the first NEG leaves a valid frame for the second to complement. -/
theorem negativeInvolution : Obligations.NegativeInvolution := by
  refine ⟨fun _ _ hf => negative_negative_of_isFrame hf, negative_negative, fun s hw hv hf => ?_⟩
  exact ⟨_, _, exec_neg_of_valid hw hv, exec_neg_of_valid hw hv, negative_negative_of_isFrame hf, hv⟩

end Sys2Proof.Machine
end

section
/-! PROOFS. The segments of a frame and the stream they make up (spec/43_transmit.md R130, R131, R137): which segments
there are for each place of the break, and which part of the stream each byte comes from. -/

namespace Sys2Proof.Machine

open Sys2Proof

/-! ### The control sequences -/

/-- A control sequence has a byte, and all its bytes are control bytes (R28 to R30). -/
theorem controlSequenceOk_spec {cs : List Byte} (h : controlSequenceOk cs = true) :
    cs ≠ [] ∧ ∀ b ∈ cs, b.msb = true := by
  simp only [controlSequenceOk, Bool.and_eq_true, decide_eq_true_eq, List.all_eq_true] at h
  obtain ⟨⟨hpos, -⟩, hmsb⟩ := h
  exact ⟨List.ne_nil_of_length_pos hpos, hmsb⟩

theorem layoutWf_controlSequences {layout : Layout} (h : LayoutWF layout) :
    controlSequenceOk layout.cs1 = true ∧ controlSequenceOk layout.cs2 = true := by
  simp only [LayoutWF, layoutWf, Bool.and_eq_true] at h
  obtain ⟨⟨⟨-, hcs1⟩, hcs2⟩, -⟩ := h
  exact ⟨hcs1, hcs2⟩

theorem layoutWf_one_le_L {layout : Layout} (h : LayoutWF layout) : 1 ≤ layout.L := by
  simp only [LayoutWF, layoutWf, Bool.and_eq_true, decide_eq_true_eq] at h
  obtain ⟨⟨⟨⟨⟨⟨⟨⟨hL, -⟩, -⟩, -⟩, -⟩, -⟩, -⟩, -⟩, -⟩ := h
  exact hL

/-! ### The segments -/

section
variable {layout : Layout} {f : List Byte}

theorem segs_of_two_bands (hf : f.length = layout.L) (hB : layout.B < layout.L) :
    segs layout f = [layout.cs1, f.take layout.B, layout.cs2, f.drop layout.B].filter fun seg => !seg.isEmpty := by
  have hdrop : (f.drop layout.B).take (layout.L - layout.B) = f.drop layout.B :=
    List.take_of_length_le (by rw [List.length_drop, hf])
  rw [segs, if_pos hB, hdrop]
  rfl

theorem segs_of_one_band (hf : f.length = layout.L) (hB : layout.B = layout.L) :
    segs layout f = [layout.cs1, f].filter fun seg => !seg.isEmpty := by
  have htake : f.take layout.B = f := List.take_of_length_le (by rw [hf, hB])
  rw [segs, if_neg (by omega), htake]
  rfl

/-- The stream is CS1, the cells below the break and, with two bands, CS2 and the other cells (R130). -/
theorem txStream_eq (hw : LayoutWF layout) (hf : f.length = layout.L) :
    txStream layout f =
      layout.cs1 ++ f.take layout.B ++ (if layout.B < layout.L then layout.cs2 ++ f.drop layout.B else []) := by
  obtain hB | hB := Nat.lt_or_eq_of_le (layoutWf_bounds hw).1
  · rw [txStream, segs_of_two_bands hf hB, List.flatten_filter_not_isEmpty, if_pos hB]
    simp
  · rw [txStream, segs_of_one_band hf hB, List.flatten_filter_not_isEmpty, if_neg (by omega),
      List.take_of_length_le (by omega)]
    simp

end

/-- Settles O20: the control sequences are never empty, and a part of the frame is empty only at `B = 0`. -/
theorem segmentList : Obligations.SegmentList := by
  intro layout hw f hf
  have hL := layoutWf_one_le_L hw
  obtain ⟨hcs1, hcs2⟩ := layoutWf_controlSequences hw
  obtain ⟨hcs1, -⟩ := controlSequenceOk_spec hcs1
  obtain ⟨hcs2, -⟩ := controlSequenceOk_spec hcs2
  have hne : f ≠ [] := List.ne_nil_of_length_pos (by omega)
  refine ⟨fun hpos hB => ?_, fun hB => ?_, fun hB => ?_, fun seg hseg => ?_, txStream_eq hw hf⟩
  · have htop : f.take layout.B ≠ [] := List.ne_nil_of_length_pos (by rw [List.length_take]; omega)
    have hbottom : f.drop layout.B ≠ [] := List.ne_nil_of_length_pos (by rw [List.length_drop]; omega)
    rw [segs_of_two_bands hf hB]
    simp [hcs1, htop, hcs2, hbottom]
  · rw [segs_of_one_band hf hB]
    simp [hcs1, hne]
  · rw [segs_of_two_bands hf (by omega), hB]
    simp [hcs1, hcs2, hne]
  · have hkept := List.of_mem_filter hseg
    simpa using hkept

/-! ### The bytes of the stream -/

/-- A byte of a concatenation comes from one of the two parts. -/
theorem getElem?_append_cases {xs ys : List Byte} {k : Nat} {b : Byte} (h : (xs ++ ys)[k]? = some b) :
    (k < xs.length ∧ b ∈ xs) ∨ (xs.length ≤ k ∧ ys[k - xs.length]? = some b) := by
  obtain hk | hk := Nat.lt_or_ge k xs.length
  · rw [List.getElem?_append_left hk] at h
    exact .inl ⟨hk, List.mem_of_getElem? h⟩
  · rw [List.getElem?_append_right hk] at h
    exact .inr ⟨hk, h⟩

/-- The offsets of the control sequences in the stream (R137 (b)). -/
def InControlSequence (layout : Layout) (k : Nat) : Prop :=
  k < layout.cs1.length ∨
    (layout.B < layout.L ∧ layout.cs1.length + layout.B ≤ k ∧ k < layout.cs1.length + layout.B + layout.cs2.length)

/-- The byte at an offset of a control sequence is a byte of one, and any other byte of the stream is a cell. -/
theorem txStream_getElem?_cases {layout : Layout} (hw : LayoutWF layout) {f : List Byte} (hf : f.length = layout.L)
    {k : Nat} {b : Byte} (h : (txStream layout f)[k]? = some b) :
    (InControlSequence layout k ∧ (b ∈ layout.cs1 ∨ b ∈ layout.cs2)) ∨ (¬InControlSequence layout k ∧ b ∈ f) := by
  have hB := (layoutWf_bounds hw).1
  have htop : (f.take layout.B).length = layout.B := by rw [List.length_take]; omega
  unfold InControlSequence
  rw [txStream_eq hw hf, List.append_assoc] at h
  obtain ⟨hk, hb⟩ | ⟨hcs1, h⟩ := getElem?_append_cases h
  · exact .inl ⟨.inl hk, .inl hb⟩
  obtain ⟨hk, hb⟩ | ⟨hrow1, h⟩ := getElem?_append_cases h
  · exact .inr ⟨by omega, List.mem_of_mem_take hb⟩
  split at h
  · obtain ⟨hk, hb⟩ | ⟨hcs2, h⟩ := getElem?_append_cases h
    · exact .inl ⟨by omega, .inr hb⟩
    · exact .inr ⟨by omega, List.mem_of_mem_drop (List.mem_of_getElem? h)⟩
  · cases h

/-- A cell of a Frame is a pixel byte within the mask (R32, R81). -/
theorem IsFrame.pixelByte {layout : Layout} {f : List Byte} (hf : IsFrame layout f) (hw : LayoutWF layout) {b : Byte}
    (hb : b ∈ f) : b.msb = false ∧ b.toNat ≤ (mask layout).toNat := by
  obtain ⟨-, hcell⟩ := isFrame_iff.1 hf
  have hle : b.toNat ≤ (mask layout).toNat := and_mask_of_within (hcell b hb) ▸ and_mask_le layout b
  exact ⟨msb_of_le_mask hw hle, hle⟩

theorem LayoutWF.controlByte {layout : Layout} (hw : LayoutWF layout) {b : Byte}
    (hb : b ∈ layout.cs1 ∨ b ∈ layout.cs2) : b.msb = true := by
  obtain ⟨hcs1, hcs2⟩ := layoutWf_controlSequences hw
  exact hb.elim ((controlSequenceOk_spec hcs1).2 b) ((controlSequenceOk_spec hcs2).2 b)

/-- Without its control bytes the stream of a Frame is the Frame (R137 (c)). -/
theorem txStream_filter_pixelBytes {layout : Layout} (hw : LayoutWF layout) {f : List Byte} (hf : IsFrame layout f) :
    (txStream layout f).filter (fun b => !b.msb) = f := by
  obtain ⟨hlen, -⟩ := isFrame_iff.1 hf
  have hcells : ∀ part, part ⊆ f → part.filter (fun b => !b.msb) = part := fun part hpart =>
    List.filter_eq_self.2 fun b hb => by rw [(hf.pixelByte hw (hpart hb)).1, Bool.not_false]
  have hcs1 : layout.cs1.filter (fun b => !b.msb) = [] :=
    List.filter_eq_nil_iff.2 fun b hb => by simp [hw.controlByte (.inl hb)]
  have hcs2 : layout.cs2.filter (fun b => !b.msb) = [] :=
    List.filter_eq_nil_iff.2 fun b hb => by simp [hw.controlByte (.inr hb)]
  rw [txStream_eq hw hlen, List.filter_append, List.filter_append, hcs1, hcells _ (List.take_subset ..),
    List.nil_append]
  split
  · rw [List.filter_append, hcs2, hcells _ (List.drop_subset ..), List.nil_append, List.take_append_drop]
  · rw [List.filter_nil, List.append_nil, List.take_of_length_le (by omega)]

/-- Settles O21: the length is that of the parts, a byte is a control byte exactly at an offset of a control sequence,
and the cells of a packed frame are those of `pack`. -/
theorem streamProperties : Obligations.StreamProperties := by
  intro layout hw f hf
  obtain ⟨hlen, -⟩ := isFrame_iff.1 hf
  have hB := (layoutWf_bounds hw).1
  refine ⟨?_, fun k b hb => ?_, txStream_filter_pixelBytes hw hf, ?_⟩
  · rw [txStream_eq hw hlen]
    split <;> simp only [List.length_append, List.length_take, List.length_drop, List.length_nil] <;> omega
  · obtain ⟨hin, hcs⟩ | ⟨hout, hcell⟩ := txStream_getElem?_cases hw hlen hb
    · have hmsb := hw.controlByte hcs
      exact ⟨iff_of_true hmsb hin, fun h => by simp [hmsb] at h⟩
    · obtain ⟨hmsb, hle⟩ := hf.pixelByte hw hcell
      exact ⟨iff_of_false (by simp [hmsb]) hout, fun _ => hle⟩
  · rintro cols rfl i c hi hc
    rw [pack_getElem?_remapOf hw cols hi, hc, Option.getD_some]

end Sys2Proof.Machine
end

section
/-! PROOFS. The command TX (spec/43_transmit.md R132 to R136): one equation for each thing a step of the sequencer can
do, the loop after any number of answered segments, and the loop as the iteration of the step. -/

namespace Sys2Proof.Machine

open Sys2Proof

/-- TX with a valid frame is the loop over the segments from the sequencer's start (R132). -/
theorem exec_tx_of_valid {s : State} (hw : LayoutWF s.params.layout) (hv : s.fbv = true) :
    exec .tx s = .next (sendSegs (stateSegs s) (startTx s)) :=
  (withLayout_of_wf hw _).trans (if_pos hv)

/-! ### The ends of a TX -/

/-- The state after the segments `sent` were answered `ok`, with the answers `rest` still to come. -/
def afterSegs (sent : List (List Byte)) (rest : List Answer) (s : State) : State :=
  { s with
    sink := s.sink ++ sent.flatten, writes := s.writes ++ sent, answers := rest,
    txs := { active := true, seg := s.txs.seg + sent.length, idx := 0 } }

/-- The loop goes through the segments answered `ok`, one write each (R132, R134). -/
theorem sendSegs_append_of_ok {sent : List (List Byte)} (later : List (List Byte)) {rest : List Answer} {s : State}
    (ha : s.txs.active = true) (hidx : s.txs.idx = 0) (h : s.answers = List.replicate sent.length .ok ++ rest) :
    sendSegs (sent ++ later) s = sendSegs later (afterSegs sent rest s) := by
  induction sent generalizing s with
  | nil =>
    have htxs : s.txs = { active := true, seg := s.txs.seg + 0, idx := 0 } := by rw [Nat.add_zero, ← ha, ← hidx]
    have hs : afterSegs [] rest s = s := by
      simp only [afterSegs, List.flatten_nil, List.append_nil, List.length_nil]
      rw [← htxs, show rest = s.answers from h.symm]
    rw [hs, List.nil_append]
  | cons seg sent ih =>
    have hok : s.answers = .ok :: (List.replicate sent.length .ok ++ rest) := h
    rw [List.cons_append, sendSegs_of_ok hok, ih rfl rfl rfl]
    simp [afterSegs, hidx, Nat.add_assoc, Nat.add_comm 1]

/-- A list cut before and after one of its elements. -/
theorem cut_at_getElem? {ss : List (List Byte)} {j : Nat} {seg : List Byte} (h : ss[j]? = some seg) :
    ss = ss.take j ++ seg :: ss.drop (j + 1) ∧ (ss.take j).length = j ∧ ss.take (j + 1) = ss.take j ++ [seg] := by
  obtain ⟨hj, rfl⟩ := List.getElem?_eq_some_iff.1 h
  refine ⟨?_, List.length_take_of_le hj.le, List.take_succ_eq_append_getElem hj⟩
  rw [List.getElem_cons_drop, List.take_append_drop]

/-- TX comes to segment `j` when the writes before it are answered `ok` (R132). -/
theorem exec_tx_of_ok {s : State} {j : Nat} {seg : List Byte} {rest : List Answer} (hw : LayoutWF s.params.layout)
    (hv : s.fbv = true) (hseg : (segs s.params.layout s.fb)[j]? = some seg)
    (h : s.answers = List.replicate j .ok ++ rest) :
    exec .tx s = .next (sendSegs (seg :: (segs s.params.layout s.fb).drop (j + 1))
      (afterSegs ((segs s.params.layout s.fb).take j) rest (startTx s))) := by
  obtain ⟨hcut, hlen, -⟩ := cut_at_getElem? hseg
  rw [exec_tx_of_valid hw hv, ← sendSegs_append_of_ok _ rfl rfl (by rw [hlen]; exact h), ← hcut]
  rfl

/-- Settles O22: after the last segment the loop has only to respond. -/
theorem transmitCompletes : Obligations.TransmitCompletes := by
  intro s later hw hv h
  rw [exec_tx_of_valid hw hv, ← List.append_nil (stateSegs s), sendSegs_append_of_ok (s := startTx s) [] rfl rfl h]
  rfl

/-- The kind's FAULTS bit and code, and HALT unchanged (R136 (d), R181). -/
theorem raise_failCause {kind : FailKind} {bit : BitVec 5} {code : Byte}
    (h : (kind, bit, code) ∈ [(FailKind.disconnected, 0b00001#5, 0x01#8), (FailKind.timeout, 0b00010#5, 0x02#8),
      (FailKind.writeRejected, 0b00100#5, 0x03#8)]) (s : State) :
    raise (failCause kind) s = { s with
      faults := s.faults ||| bit, rspOut := s.rspOut ++ [code], busy := false, txs := Sequencer.idle,
      dec := .boundary } := by
  simp only [List.mem_cons, List.not_mem_nil, or_false, Prod.mk.injEq] at h
  obtain ⟨rfl, rfl, rfl⟩ | ⟨rfl, rfl, rfl⟩ | ⟨rfl, rfl, rfl⟩ := h <;> rfl

/-- Settles O23: the loop comes to segment `j`, hands it over and raises the fault. -/
theorem transmitFailure : Obligations.TransmitFailure := by
  intro s j delivered seg later kind bit code hkind hw hv hseg h
  obtain ⟨-, -, htake⟩ := cut_at_getElem? hseg
  rw [exec_tx_of_ok hw hv hseg h, sendSegs_of_fail rfl, raise_failCause hkind, htake]
  simp [afterSegs, startTx, handOver]

/-- Settles O24: the loop comes to segment `j` and hands it over. -/
theorem transmitWaits : Obligations.TransmitWaits := by
  intro s j seg hw hv hseg h
  obtain ⟨-, hlen, htake⟩ := cut_at_getElem? hseg
  rw [exec_tx_of_ok hw hv hseg (h.trans (List.append_nil _).symm), sendSegs_of_silent rfl, htake]
  simp [afterSegs, startTx, handOver, hlen]

/-! ### The step of the sequencer -/

theorem txStep_of_idle {s : State} (ha : s.txs.active = false) : txStep s = s := by simp [txStep, ha]

section
variable {s : State}

theorem txStep_past_last (ha : s.txs.active = true) (hseg : (stateSegs s)[s.txs.seg]? = none) :
    txStep s = respond okCode s := by
  simp [txStep, ha, hseg]

variable {seg : List Byte} (ha : s.txs.active = true) (hseg : (stateSegs s)[s.txs.seg]? = some seg)
include ha hseg

theorem txStep_of_silent (h : s.answers = []) : txStep s = handOver seg s := by
  simp [txStep, ha, hseg, write_of_silent h]

theorem txStep_of_ok {as : List Answer} (h : s.answers = .ok :: as) :
    txStep s = { handOver seg s with
      answers := as, sink := s.sink ++ seg, txs := { active := true, seg := s.txs.seg + 1, idx := 0 } } := by
  simp [txStep, ha, hseg, write_of_ok h]

theorem txStep_of_fail {kind : FailKind} {n : Nat} {as : List Answer} (h : s.answers = .fail kind n :: as) :
    txStep s = raise (failCause kind) { handOver seg s with answers := as, sink := s.sink ++ seg.take n } := by
  simp [txStep, ha, hseg, write_of_fail h]

end

/-! ### A segment already handed over -/

/-- Where the segments from the sequencer's place on are known, the first is its segment and the others come next. -/
theorem segment_of_drop_eq {ss later : List (List Byte)} {seg : List Byte} {k : Nat} (h : ss.drop k = seg :: later) :
    ss[k]? = some seg ∧ ss.drop (k + 1) = later := by
  rw [← List.head?_drop, ← List.tail_drop, h]
  exact ⟨rfl, rfl⟩

/-- A segment is handed over once (R131). -/
theorem handOver_handOver {seg : List Byte} (hseg : seg ≠ []) (s : State) :
    handOver seg (handOver seg s) = handOver seg s := by
  have hlen : seg.length ≠ 0 := mt List.eq_nil_of_length_eq_zero hseg
  simp [handOver, hlen]

/-- To write a segment already handed over is to await the answer to that write (R36, R131). -/
theorem write_handOver {seg : List Byte} (hseg : seg ≠ []) (s : State) : write seg (handOver seg s) = write seg s := by
  simp only [write, handOver_handOver hseg]

theorem sendSegs_handOver {seg : List Byte} (hseg : seg ≠ []) (later : List (List Byte)) (s : State) :
    sendSegs (seg :: later) (handOver seg s) = sendSegs (seg :: later) s := by
  simp only [sendSegs, write_handOver hseg]

/-! ### The loop is the iteration of the step -/

/-- From the sequencer's place on, the loop is one step for each segment left and one more. A step changes nothing
after the end of the command, and nothing while the answer to a segment handed over is awaited. -/
theorem sendSegs_eq_iterate_txStep {ss : List (List Byte)} {s : State} (ha : s.txs.active = true)
    (hss : (stateSegs s).drop s.txs.seg = ss) : sendSegs ss s = txStep^[ss.length + 1] s := by
  induction ss generalizing s with
  | nil =>
    have hnone : (stateSegs s)[s.txs.seg]? = none := by rw [← List.head?_drop, hss, List.head?_nil]
    exact (txStep_past_last ha hnone).symm
  | cons seg later ih =>
    obtain ⟨hseg, hlater⟩ := segment_of_drop_eq hss
    rw [List.length_cons, Function.iterate_succ_apply]
    obtain h | ⟨as, h⟩ | ⟨kind, n, as, h⟩ := answers_cases s
    · have hwaits : txStep (handOver seg s) = handOver seg s := by
        rw [txStep_of_silent (s := handOver seg s) ha hseg h,
          handOver_handOver (ne_nil_of_mem_stateSegs (List.mem_of_getElem? hseg))]
      rw [sendSegs_of_silent h, txStep_of_silent ha hseg h, Function.iterate_fixed hwaits]
    · rw [sendSegs_of_ok h, txStep_of_ok ha hseg h]
      exact ih rfl hlater
    · rw [sendSegs_of_fail h, txStep_of_fail ha hseg h, Function.iterate_fixed (txStep_of_idle rfl)]

/-- Settles O25: the one-step clauses are the equations of the step, and a TX starts with all segments left. -/
theorem sequencerStepsAgreeWithLoop : Obligations.SequencerStepsAgreeWithLoop := by
  refine ⟨fun s ha hseg => txStep_past_last ha hseg, fun s seg later ha hidx hseg h => ?_,
    fun s seg kind delivered later ha hidx hseg h => ?_, fun s hw hv => ?_⟩
  · rw [txStep_of_ok ha hseg h]
    simp [handOver, hidx]
  · rw [txStep_of_fail ha hseg h]
    simp [handOver, hidx, raise, respond, endCommand]
  · rw [exec_tx_of_valid hw hv]
    exact congrArg Host.Outcome.next (sendSegs_eq_iterate_txStep (s := startTx s) rfl (List.drop_zero ..))

/-! ### Waiting and going on -/

/-- A loop left waiting and resumed with further answers is the loop with all the answers (R134, R36). -/
theorem sendSegs_resumed {ss : List (List Byte)} {s : State} (hss : (stateSegs s).drop s.txs.seg = ss)
    (later : List Answer) (hwaits : (sendSegs ss s).txs.active = true) :
    sendSegs ss { s with answers := s.answers ++ later } = resumeTx { sendSegs ss s with answers := later } := by
  induction ss generalizing s with
  | nil => cases hwaits
  | cons seg rest ih =>
    obtain ⟨hseg, hrest⟩ := segment_of_drop_eq hss
    obtain h | ⟨as, h⟩ | ⟨kind, n, as, h⟩ := answers_cases s
    · have hne := ne_nil_of_mem_stateSegs (List.mem_of_getElem? hseg)
      have hresume : resumeTx { handOver seg s with answers := later } =
          sendSegs (seg :: rest) (handOver seg { s with answers := later }) :=
        congrArg (sendSegs · _) hss
      rw [sendSegs_of_silent h, hresume, sendSegs_handOver hne, h, List.nil_append]
    · rw [sendSegs_of_ok h] at hwaits ⊢
      rw [h, sendSegs_of_ok rfl]
      exact ih hrest hwaits
    · rw [sendSegs_of_fail h] at hwaits
      cases hwaits

/-- Settles O26: the start of a TX does not look at the answers, and its loop is resumed at the segment it waits in. -/
theorem waitingTransmitResumes : Obligations.WaitingTransmitResumes := by
  intro s t first later hw hv h hwaits
  obtain rfl := Host.Outcome.next.inj ((exec_tx_of_valid (s := { s with answers := first }) hw hv).symm.trans h)
  rw [exec_tx_of_valid (s := { s with answers := first ++ later }) hw hv]
  exact congrArg Host.Outcome.next
    (sendSegs_resumed (s := startTx { s with answers := first }) (List.drop_zero ..) later hwaits)

/-- A TX in progress without an answer is stuck (R134, R214). -/
theorem stepEncoder_of_silent {s : State} (hh : s.halt = false) (ha : s.txs.active = true) (hn : s.answers = []) :
    stepEncoder s = .fault .transportSilent := by
  simp [stepEncoder, hh, ha, hn]

/-- Settles O45: where no pin and no byte for the device comes first, the step is the encoder's. -/
theorem silentTransportStalls : Obligations.SilentTransportStalls := by
  intro s hw hp hr hb hh ha
  rw [step_of_upToDate hw hp hr hb]
  exact ⟨stepEncoder_of_silent hh ha, stepEncoder_of_answered hh ha⟩

end Sys2Proof.Machine
end

section
/-! PROOFS. The caller procedures (spec/44_caller_procedures.md R145 to R152): the display width, centering, the windows
of a scroll with its commands, and the flash step NEG, TX in the host's loop. -/

namespace Sys2Proof.Machine

open Sys2Proof

/-! ### The display width -/

theorem displayWidth_of_ok {layout : Layout} {w : Nat} (h1 : 1 ≤ w) (hL : w ≤ layout.L) :
    displayWidth layout (some w) = some w :=
  Option.filter_eq_some_iff.2 ⟨rfl, widthOk_iff.2 ⟨h1, hL⟩⟩

theorem displayWidth_of_outside {layout : Layout} {w : Nat} (h : w = 0 ∨ layout.L < w) :
    displayWidth layout (some w) = none := by
  have hbad : ¬widthOk layout w = true := fun hok => by
    obtain ⟨h1, hL⟩ := widthOk_iff.1 hok
    omega
  rw [displayWidth, Option.some_or, Option.filter_some, if_neg hbad]

/-- Where the caller names no width, the default is checked like a width that is named (R146). -/
theorem displayWidth_none_of_default {layout : Layout} {w : Nat} (h : defaultWidth layout = some w) :
    displayWidth layout none = displayWidth layout (some w) := by
  rw [displayWidth, displayWidth, Option.none_or, Option.some_or, h]

/-- The default width is `L` with one band and `B` with a row-1 region beside another band; there is none without a
row-1 region (R146, log entry 31). -/
theorem displayWidth_default {layout : Layout} (hw : LayoutWF layout) :
    (layout.B = layout.L → displayWidth layout none = some layout.L) ∧
    (0 < layout.B → layout.B < layout.L → displayWidth layout none = some layout.B) ∧
    (layout.B = 0 → displayWidth layout none = none) := by
  have hL := layoutWf_one_le_L hw
  refine ⟨fun hB => ?_, fun hpos hB => ?_, fun hB => ?_⟩
  · have hdefault : defaultWidth layout = some layout.L := if_pos hB
    rw [displayWidth_none_of_default hdefault, displayWidth_of_ok hL le_rfl]
  · have hdefault : defaultWidth layout = some layout.B := by
      rw [defaultWidth, if_neg hB.ne, if_neg hpos.ne']
    rw [displayWidth_none_of_default hdefault, displayWidth_of_ok hpos hB.le]
  · have hdefault : defaultWidth layout = none := by
      rw [defaultWidth, if_neg (by omega), if_pos hB]
    rw [displayWidth, Option.none_or, hdefault, Option.filter_none]

/-! ### Centering -/

/-- Settles O59: the padding is half of what the text leaves of the width, and CENTER expands where its width is in
range. -/
theorem centeringPolicy : Obligations.CenteringPolicy := by
  refine ⟨fun width w hle => ⟨rfl, ?_, ?_⟩, fun width w hlt => ?_, fun _ _ => rfl,
    fun fonts layout cols hw => ?_⟩
  · rw [centerAfter, centerPadding]
    omega
  · rw [centerAfter, centerPadding]
    omega
  · rw [centerPadding, Nat.sub_eq_zero_of_le hlt.le, Nat.zero_div]
  · obtain ⟨hone, htwo, hnone⟩ := displayWidth_default hw
    refine ⟨hone, htwo, hnone, fun w => ⟨fun h1 hL => ?_, fun hout => ?_⟩⟩
    · rw [expand, displayWidth_of_ok h1 hL, Option.map_some]
    · rw [expand, displayWidth_of_outside hout, Option.map_none]

/-! ### Scrolling -/

@[simp] theorem scrollPadded_length (width : Nat) (text : List Byte) :
    (scrollPadded width text).length = 2 * width + text.length := by
  rw [scrollPadded, List.length_append, List.length_append, zeros_length]
  omega

@[simp] theorem scrollWindows_length (layout : Layout) (width : Nat) (text : List Byte) :
    (scrollWindows layout width text).length = 2 * width + text.length + 1 - layout.L := by
  rw [scrollWindows, List.length_map, List.length_range, scrollPadded_length]

/-- A window that does not reach past the end of the sequence has all its columns (R145). -/
theorem window_length {s : List Byte} {o len : Nat} (h : o + len ≤ s.length) : (window s o len).length = len := by
  rw [window, List.length_take, List.length_drop]
  omega

theorem window_getElem? {s : List Byte} {o len k : Nat} (hk : k < len) : (window s o len)[k]? = s[o + k]? := by
  rw [window, List.getElem?_take_of_lt hk, List.getElem?_drop]

/-- The window at place `o` of a scroll is the one at offset `o`, and it lies within the padded sequence (R149). -/
theorem scrollWindows_getElem?_some {layout : Layout} {width o : Nat} {text w : List Byte}
    (h : (scrollWindows layout width text)[o]? = some w) :
    w = window (scrollPadded width text) o layout.L ∧ o + layout.L ≤ (scrollPadded width text).length := by
  rw [scrollWindows, List.getElem?_map, Option.map_eq_some_iff] at h
  obtain ⟨i, hi, rfl⟩ := h
  obtain ⟨hlt, rfl⟩ := List.getElem?_eq_some_iff.1 hi
  rw [List.length_range] at hlt
  rw [List.getElem_range]
  exact ⟨rfl, by omega⟩

/-- The commands of a scroll over its windows: a PACK and a TX for each (R149). -/
def scrollCommands (windows : List (List Byte)) : List Instr := windows.flatMap fun w => [hostPack w, .tx]

theorem expand_scroll_of_ok (fonts : Fonts) {layout : Layout} {width : Nat} (cols : Operand) (h1 : 1 ≤ width)
    (hL : width ≤ layout.L) :
    expand fonts layout (.scroll (some width) cols) =
      some (scrollCommands (scrollWindows layout width (operandBytes fonts.single cols))) := by
  rw [expand, displayWidth_of_ok h1 hL, Option.map_some]
  rfl

@[simp] theorem scrollCommands_cons (w : List Byte) (windows : List (List Byte)) :
    scrollCommands (w :: windows) = hostPack w :: .tx :: scrollCommands windows := rfl

theorem scrollCommands_length (windows : List (List Byte)) :
    (scrollCommands windows).length = 2 * windows.length := by
  induction windows with
  | nil => rfl
  | cons w windows ih =>
    rw [scrollCommands_cons, List.length_cons, List.length_cons, List.length_cons, ih]
    omega

/-- The commands of window `o` stand at the places `2o` and `2o + 1`. -/
theorem scrollCommands_getElem? {windows : List (List Byte)} {o : Nat} {w : List Byte} (h : windows[o]? = some w) :
    (scrollCommands windows)[2 * o]? = some (hostPack w) ∧ (scrollCommands windows)[2 * o + 1]? = some .tx := by
  induction windows generalizing o with
  | nil => cases h
  | cons v windows ih =>
    cases o with
    | zero =>
      cases h
      exact ⟨rfl, rfl⟩
    | succ o => exact ih h

/-- Settles O60: the offsets run as far as a whole window fits, and the commands go through the windows in pairs. -/
theorem scrollWindows_spec : Obligations.ScrollWindows := by
  intro layout width text
  refine ⟨scrollPadded_length width text, fun hle => ?_, fun hlt => ?_, fun o w h => ?_, fun fonts cols htext =>
    ⟨fun h1 hL => ?_, fun hout => ?_⟩⟩
  · rw [scrollWindows_length]
    omega
  · exact List.eq_nil_of_length_eq_zero (by rw [scrollWindows_length]; omega)
  · obtain ⟨rfl, hfits⟩ := scrollWindows_getElem?_some h
    exact ⟨window_length hfits, fun k hk => window_getElem? hk⟩
  · rw [expand_scroll_of_ok fonts cols h1 hL, htext]
    exact ⟨_, rfl, scrollCommands_length _, fun o w h => scrollCommands_getElem? h⟩
  · rw [expand, displayWidth_of_outside hout, Option.map_none]

/-! ### Flashing -/

theorem isEmpty_congr {xs ys : List Byte} (h : xs.length = ys.length) : xs.isEmpty = ys.isEmpty := by
  rw [Bool.eq_iff_iff, List.isEmpty_iff_length_eq_zero, List.isEmpty_iff_length_eq_zero, h]

/-- How many segments a frame has depends on its number of cells only (R131). -/
theorem segs_length_congr {layout : Layout} {f g : List Byte} (h : f.length = g.length) :
    (segs layout f).length = (segs layout g).length := by
  have htop : (f.take layout.B).isEmpty = (g.take layout.B).isEmpty :=
    isEmpty_congr (by rw [List.length_take, List.length_take, h])
  have hbottom : ((f.drop layout.B).take (layout.L - layout.B)).isEmpty =
      ((g.drop layout.B).take (layout.L - layout.B)).isEmpty :=
    isEmpty_congr (by simp only [List.length_take, List.length_drop, h])
  simp only [segs, ← List.countP_eq_length_filter]
  split <;> simp only [List.cons_append, List.nil_append, List.countP_cons, List.countP_nil, htop, hbottom]

/-- A block that takes commands is not halted (R35). -/
theorem halt_of_acceptsCommand {s : State} (h : acceptsCommand s = true) : s.halt = false := by
  simp only [acceptsCommand, Bool.and_eq_true, Bool.not_eq_true'] at h
  obtain ⟨⟨hhalt, -⟩, -⟩ := h
  exact hhalt

/-- After a response the block takes the next command, unless it is halted. -/
theorem acceptsCommand_respond (code : Byte) (s : State) : acceptsCommand (respond code s) = !s.halt :=
  acceptsCommand_endCommand _

/-- To a block that takes no command the host issues none (R152, log entry 27). -/
theorem hostRun_of_not_accepts {s : State} (i : Instr) (later : List Instr) (ha : acceptsCommand s = false) :
    hostRun (i :: later) s = .next s := by
  rw [hostRun, ha]
  rfl

/-- A command that ends with RSP_OK is followed by the next one. -/
theorem hostRun_cons_of_respond {i : Instr} {s t : State} (later : List Instr) (ha : acceptsCommand s = true)
    (he : exec i s = .next (respond okCode t)) : hostRun (i :: later) s = hostRun later (respond okCode t) :=
  hostRun_cons_of_ok later ha he (respond_busy ..) List.getLast?_concat

/-- The state after NEG (R126). -/
def afterNeg (s : State) : State := respond okCode { s with fb := negative s.params.layout s.fb }

/-- The state after a TX with every write answered `ok`, with the answers `rest` still to come (R132, R134). -/
def afterTx (rest : List Answer) (s : State) : State :=
  respond okCode { s with
    sink := s.sink ++ txStream s.params.layout s.fb, writes := s.writes ++ stateSegs s, answers := rest }

/-- NEG keeps the number of segments. -/
theorem stateSegs_afterNeg_length (s : State) : (stateSegs (afterNeg s)).length = (stateSegs s).length :=
  segs_length_congr (negative_length ..)

/-- A flash step runs to its end and the host goes on: the answers that there are for the frame serve its complement
(R151). -/
theorem hostRun_flash {s : State} (later : List Instr) {rest : List Answer} (ha : acceptsCommand s = true)
    (hw : LayoutWF s.params.layout) (hv : s.fbv = true)
    (hanswers : s.answers = List.replicate (stateSegs s).length .ok ++ rest) :
    hostRun (.neg :: .tx :: later) s = hostRun later (afterTx rest (afterNeg s)) := by
  have haccepts : acceptsCommand (afterNeg s) = true := by
    rw [afterNeg, acceptsCommand_respond, halt_of_acceptsCommand ha, Bool.not_false]
  have htx : exec .tx (afterNeg s) = .next (afterTx rest (afterNeg s)) :=
    transmitCompletes (afterNeg s) rest hw hv (by rw [stateSegs_afterNeg_length]; exact hanswers)
  calc hostRun (.neg :: .tx :: later) s = hostRun (.tx :: later) (afterNeg s) :=
        hostRun_cons_of_respond _ ha (exec_neg_of_valid hw hv)
    _ = hostRun later (afterTx rest (afterNeg s)) := hostRun_cons_of_respond _ haccepts htx

/-- After a flash step the block takes the next one. -/
theorem acceptsCommand_afterFlash (rest : List Answer) {s : State} (ha : acceptsCommand s = true) :
    acceptsCommand (afterTx rest (afterNeg s)) = true := by
  rw [afterTx, acceptsCommand_respond]
  exact congrArg not (halt_of_acceptsCommand ha)

/-- Settles O27: the block takes the second flash step with the other half of the answers, and it complements the
complement. -/
theorem flashTwiceRestores : Obligations.FlashTwiceRestores := by
  refine ⟨fun s ha hw hv hf hanswers => ?_, fun i later s ha => hostRun_of_not_accepts i later ha⟩
  have hnegative : negative s.params.layout (negative s.params.layout s.fb) = s.fb := negative_negative_of_isFrame hf
  rw [Nat.two_mul, List.replicate_add] at hanswers
  have hfirst := hostRun_flash [.neg, .tx] ha hw hv hanswers
  have hhalf : List.replicate (stateSegs s).length Answer.ok =
      List.replicate (stateSegs (afterNeg s)).length .ok ++ [] := by
    rw [List.append_nil, stateSegs_afterNeg_length]
  have hsecond := hostRun_flash (s := afterTx _ (afterNeg s)) [] (acceptsCommand_afterFlash _ ha) hw hv hhalf
  refine ⟨_, hfirst.trans hsecond, hnegative, hv, rfl, ?_, ?_⟩
  · simp [afterTx, afterNeg, okCode]
  · simp [afterTx, afterNeg, hnegative]

end Sys2Proof.Machine
end

section
/-! PROOFS. The receiver on one byte (spec/45_receiver_model.md R160 to R166): an equation for each thing a control or a
pixel byte can do, and the instructions PIX and CTL over it. -/

namespace Sys2Proof.Machine

open Sys2Proof

/-! ### Which kind a byte is -/

theorem rxByte_of_above {p : Params} {v : Byte} (h : p.rx.threshold < v.toNat) (r : Rx) :
    rxByte p (.running r) v = rxControl p r v := if_pos h

theorem rxByte_of_le {p : Params} {v : Byte} (h : v.toNat ≤ p.rx.threshold) (r : Rx) :
    rxByte p (.running r) v = rxPixel p r v := if_neg (Nat.not_lt.2 h)

@[simp] theorem rxByte_undefined (p : Params) (v : Byte) : rxByte p .undefined v = .undefined := rfl

/-! ### A control byte -/

theorem properStart_iff {a b : List Byte} : properStart a b = true ↔ a <+: b ∧ a ≠ b := by
  rw [properStart, Bool.and_eq_true, List.isPrefixOf_iff_prefix, decide_eq_true_eq]
  refine and_congr_right fun hab => ⟨fun hlt heq => ?_, fun hne => ?_⟩
  · rw [heq] at hlt
    exact Nat.lt_irrefl _ hlt
  · exact Nat.lt_of_le_of_ne hab.length_le fun hlen => hne (hab.eq_of_length hlen)

/-- A receiver at the start of a band, as a completed control sequence leaves it (R162 (a), (b)). -/
def Rx.atBand (r : Rx) (band : Band) : Rx := { r with st := .awaitingColumnByte, acc := [], band := band, col := 0 }

/-- A receiver inside a control sequence (R162 (c)). -/
def Rx.inSequence (r : Rx) (acc : List Byte) : Rx := { r with st := .awaitingRowOrColumnControl, acc := acc }

section
variable {p : Params} {r : Rx} {v : Byte}

theorem rxControl_of_cs1 (h1 : r.acc ++ [v] = p.layout.cs1) : rxControl p r v = .running (r.atBand .band0) :=
  if_pos h1

theorem rxControl_of_cs2 (h1 : r.acc ++ [v] ≠ p.layout.cs1)
    (h2 : p.layout.B < p.layout.L ∧ r.acc ++ [v] = p.layout.cs2) :
    rxControl p r v = .running (r.atBand .band1) :=
  (if_neg h1).trans (if_pos h2)

theorem rxControl_of_start (h1 : r.acc ++ [v] ≠ p.layout.cs1)
    (h2 : ¬(p.layout.B < p.layout.L ∧ r.acc ++ [v] = p.layout.cs2))
    (h3 : properStart (r.acc ++ [v]) p.layout.cs1 || properStart (r.acc ++ [v]) p.layout.cs2) :
    rxControl p r v = .running (r.inSequence (r.acc ++ [v])) :=
  (if_neg h1).trans ((if_neg h2).trans (if_pos h3))

theorem rxControl_of_unrecognised (h1 : r.acc ++ [v] ≠ p.layout.cs1)
    (h2 : ¬(p.layout.B < p.layout.L ∧ r.acc ++ [v] = p.layout.cs2))
    (h3 : ¬(properStart (r.acc ++ [v]) p.layout.cs1 || properStart (r.acc ++ [v]) p.layout.cs2)) :
    rxControl p r v = .undefined :=
  (if_neg h1).trans ((if_neg h2).trans (if_neg h3))

/-! ### A pixel byte -/

theorem rxPixel_of_awaiting (hst : r.st = .awaitingColumnByte) (hacc : r.acc = []) :
    rxPixel p r v = .running { r with
      grid := putColumn r.grid r.band r.col (v &&& mask p.layout), col := advance p.rx r.col } :=
  if_pos ⟨hst, hacc⟩

/-- A pixel byte before or inside a control sequence has no meaning (R164 (b), (c)). -/
theorem rxPixel_of_not_awaiting (h : r.acc ≠ [] ∨ r.st = .awaitingRowOrColumnControl) :
    rxPixel p r v = .undefined := by
  refine if_neg fun ⟨hst, hacc⟩ => ?_
  obtain hne | hcontrol := h
  · exact hne hacc
  · rw [hst] at hcontrol
    cases hcontrol

end

theorem putColumn_eq_ite (g : Grid) (band : Band) (col : Nat) (v : Byte) :
    putColumn g band col v =
      if band = .band0 then { g with band0 := g.band0.set col v } else { g with band1 := g.band1.set col v } := by
  cases band <;> rfl

theorem advance_of_lt {cfg : RxConfig} {col : Nat} (h : col + 1 < cfg.width) : advance cfg col = col + 1 := if_pos h

theorem advance_eq_ite (cfg : RxConfig) (col : Nat) :
    advance cfg col =
      if col + 1 < cfg.width then col + 1 else if cfg.overflow = .wrap then 0 else cfg.width - 1 := by
  unfold advance
  cases cfg.overflow <;> rfl

/-! ### The instructions PIX and CTL -/

/-- Both rows of the wire set hand their byte to the device and leave all else alone (R81, R82, R172). -/
theorem exec_wire {i : Instr} {b : Byte} {s : State} (hi : (∃ v, i = .pix v) ∨ ∃ v, i = .ctl v) (hb : encode i = [b])
    (hw : LayoutWF s.params.layout) (hx : ReceiverWF s.params) :
    exec i s = .next { s with rx := rxByte s.params s.rx b } := by
  obtain ⟨v, rfl⟩ | ⟨v, rfl⟩ := hi <;> cases hb <;> exact withReceiver_of_wf hw hx _

/-- Settles O28: the byte is a pixel byte for the receiver, which awaits one. -/
theorem pixelByteShown : Obligations.PixelByteShown := by
  intro i b s r hi hb hw hx hrun hst hacc hle
  rw [exec_wire hi hb hw hx, hrun, rxByte_of_le hle, rxPixel_of_awaiting hst hacc, putColumn_eq_ite, advance_eq_ite]

/-- Settles O30: in neither situation has a pixel byte a meaning, and an undefined receiver stays so. -/
theorem undefinedReceiverInputs : Obligations.UndefinedReceiverInputs := by
  intro i b s hi hb hw hx
  refine ⟨fun r hrun hle h => ?_, fun hundef => ?_⟩
  · rw [exec_wire hi hb hw hx, hrun, rxByte_of_le hle, rxPixel_of_not_awaiting h]
  · rw [exec_wire hi hb hw hx, hundef, rxByte_undefined, ← hundef]

/-- Settles O29: the four cases are the branches of R162 in their order. -/
theorem controlByteMovesCursor : Obligations.ControlByteMovesCursor := by
  intro i b s r hi hb hw hx hrun habove acc layout isCs2 starts
  have hexec : exec i s = .next { s with rx := rxControl s.params r b } := by
    rw [exec_wire hi.symm hb hw hx, hrun, rxByte_of_above habove]
  have hstarts : (properStart acc layout.cs1 || properStart acc layout.cs2) = true ↔ starts := by
    rw [Bool.or_eq_true, properStart_iff, properStart_iff]
  rw [hexec]
  refine ⟨fun h1 => ?_, fun h1 h2 => ?_, fun h1 h2 h3 => ?_, fun h1 h2 h3 => ?_⟩
  · rw [rxControl_of_cs1 h1, Rx.atBand]
  · rw [rxControl_of_cs2 h1 h2, Rx.atBand]
  · rw [rxControl_of_start h1 h2 (hstarts.2 h3), Rx.inSequence]
  · rw [rxControl_of_unrecognised h1 h2 (mt hstarts.1 h3)]

end Sys2Proof.Machine
end

section
/-! PROOFS. The receiver over a stream (spec/45_receiver_model.md R169 to R173): a control sequence puts the cursor at
the start of its band, the cells after it overwrite the band from there, and so a frame's stream shows the frame. -/

namespace Sys2Proof.Machine

open Sys2Proof

theorem rxRun_cons (p : Params) (rx : Receiver) (b : Byte) (bytes : List Byte) :
    rxRun p rx (b :: bytes) = rxRun p (rxByte p rx b) bytes := rfl

/-! ### A control sequence -/

/-- With two bands neither control sequence is the beginning of the other (R30 (b)). -/
theorem layoutWf_apart {layout : Layout} (hw : LayoutWF layout) (hB : layout.B < layout.L) :
    ¬layout.cs1 <+: layout.cs2 ∧ ¬layout.cs2 <+: layout.cs1 := by
  simp only [LayoutWF, layoutWf, Bool.and_eq_true] at hw
  obtain ⟨-, hapart⟩ := hw
  simpa [controlSequencesApart, Nat.not_le.2 hB, ← List.isPrefixOf_iff_prefix] using hapart

/-- The control sequence of a band. -/
def bandSequence (layout : Layout) : Band → List Byte
  | .band0 => layout.cs1
  | .band1 => layout.cs2

theorem mem_of_mem_bandSequence {layout : Layout} {band : Band} {v : Byte} (h : v ∈ bandSequence layout band) :
    v ∈ layout.cs1 ∨ v ∈ layout.cs2 := by
  cases band with
  | band0 => exact .inl h
  | band1 => exact .inr h

theorem bandSequence_ne_nil {layout : Layout} (hw : LayoutWF layout) (band : Band) : bandSequence layout band ≠ [] := by
  obtain ⟨hcs1, hcs2⟩ := layoutWf_controlSequences hw
  cases band with
  | band0 => exact (controlSequenceOk_spec hcs1).1
  | band1 => exact (controlSequenceOk_spec hcs2).1

/-- The bands a Layout has: band 1 only below a row break (R163). -/
def HasBand (layout : Layout) (band : Band) : Prop := band = .band1 → layout.B < layout.L

section
variable {p : Params} {r : Rx} {band : Band} {v : Byte}

/-- The last byte of a band's control sequence puts the cursor at the start of the band (R162 (a), (b)). -/
theorem rxControl_of_completed (hw : LayoutWF p.layout) (hband : HasBand p.layout band)
    (h : r.acc ++ [v] = bandSequence p.layout band) : rxControl p r v = .running (r.atBand band) := by
  cases band with
  | band0 => exact rxControl_of_cs1 h
  | band1 =>
    have hB := hband rfl
    obtain ⟨-, hapart⟩ := layoutWf_apart hw hB
    refine rxControl_of_cs2 (fun h1 => hapart ?_) ⟨hB, h⟩
    rw [← h1, h, bandSequence]

/-- A byte that leaves a band's control sequence unfinished extends it (R162 (c)). -/
theorem rxControl_of_unfinished (hw : LayoutWF p.layout) (hband : HasBand p.layout band)
    (h : r.acc ++ [v] <+: bandSequence p.layout band) (hne : r.acc ++ [v] ≠ bandSequence p.layout band) :
    rxControl p r v = .running (r.inSequence (r.acc ++ [v])) := by
  have hstart : properStart (r.acc ++ [v]) (bandSequence p.layout band) = true := properStart_iff.2 ⟨h, hne⟩
  cases band with
  | band0 =>
    exact rxControl_of_start hne (fun ⟨hB, h2⟩ => (layoutWf_apart hw hB).2 (h2 ▸ h))
      (Bool.or_eq_true_iff.2 (.inl hstart))
  | band1 =>
    exact rxControl_of_start (fun h1 => (layoutWf_apart hw (hband rfl)).1 (h1 ▸ h)) (fun ⟨_, h2⟩ => hne h2)
      (Bool.or_eq_true_iff.2 (.inr hstart))

/-- Under the default threshold a byte is a control byte for the receiver exactly when bit 7 is set (R80, R160). -/
theorem above_threshold_iff (hT : p.rx.threshold = 127) : p.rx.threshold < v.toNat ↔ v.msb = true := by
  rw [hT, BitVec.msb_eq_true_iff_two_mul_ge]
  omega

/-- The rest of a band's control sequence puts the cursor at the start of the band. -/
theorem rxRun_rest_of_sequence (hw : LayoutWF p.layout) (hT : p.rx.threshold = 127) (hband : HasBand p.layout band)
    {rest : List Byte} (hne : rest ≠ []) (h : r.acc ++ rest = bandSequence p.layout band) :
    rxRun p (.running r) rest = .running (r.atBand band) := by
  induction rest generalizing r with
  | nil => exact absurd rfl hne
  | cons v rest ih =>
    have hmem : v ∈ bandSequence p.layout band := h ▸ List.mem_append_right _ List.mem_cons_self
    have hmsb : v.msb = true := hw.controlByte (mem_of_mem_bandSequence hmem)
    rw [rxRun_cons, rxByte_of_above ((above_threshold_iff hT).2 hmsb)]
    rw [List.append_cons] at h
    obtain rfl | hrest := eq_or_ne rest []
    · rw [rxControl_of_completed hw hband (by rwa [List.append_nil] at h), rxRun_nil]
    · have hunfinished : r.acc ++ [v] ≠ bandSequence p.layout band := fun heq =>
        hrest (List.append_right_eq_self.1 (h.trans heq.symm))
      rw [rxControl_of_unfinished hw hband ⟨rest, h⟩ hunfinished]
      exact ih hrest h

end

/-! ### The cells of a band -/

/-- The cells of a band. -/
def bandCells (g : Grid) : Band → List Byte
  | .band0 => g.band0
  | .band1 => g.band1

/-- A sequence written over another from a place on. -/
def overwrite (cells : List Byte) (col : Nat) (xs : List Byte) : List Byte :=
  cells.take col ++ xs ++ cells.drop (col + xs.length)

/-- The grid with a sequence written over a band from a column on. -/
def putColumns (g : Grid) (band : Band) (col : Nat) (xs : List Byte) : Grid :=
  match band with
  | .band0 => { g with band0 := overwrite g.band0 col xs }
  | .band1 => { g with band1 := overwrite g.band1 col xs }

@[simp] theorem overwrite_nil (cells : List Byte) (col : Nat) : overwrite cells col [] = cells := by
  simp [overwrite]

/-- Writing a sequence is writing its first element and then the others one place on. -/
theorem overwrite_set {cells : List Byte} {col : Nat} (h : col < cells.length) (v : Byte) (xs : List Byte) :
    overwrite (cells.set col v) (col + 1) xs = overwrite cells col (v :: xs) := by
  have hdrop : (cells.set col v).drop (col + 1 + xs.length) = cells.drop (col + (v :: xs).length) := by
    rw [List.drop_set_of_lt (by omega), List.length_cons, Nat.add_assoc, Nat.add_comm 1]
  have htake : (cells.set col v).take (col + 1) = cells.take col ++ [v] := by
    rw [List.take_succ_eq_append_getElem (by rwa [List.length_set]), List.getElem_set_self,
      List.take_set_of_le (Nat.le_refl col)]
  rw [overwrite, hdrop, htake, overwrite, List.append_assoc (cells.take col), List.singleton_append]

@[simp] theorem putColumns_nil (g : Grid) (band : Band) (col : Nat) : putColumns g band col [] = g := by
  cases band <;> simp [putColumns]

theorem putColumns_putColumn {g : Grid} {band : Band} {col : Nat} (h : col < (bandCells g band).length) (v : Byte)
    (xs : List Byte) : putColumns (putColumn g band col v) band (col + 1) xs = putColumns g band col (v :: xs) := by
  cases band <;> simp only [bandCells] at h <;> simp only [putColumns, putColumn, overwrite_set h]

theorem bandCells_putColumn_length (g : Grid) (band band' : Band) (col : Nat) (v : Byte) :
    (bandCells (putColumn g band col v) band').length = (bandCells g band').length := by
  cases band <;> cases band' <;> simp [putColumn, bandCells]

/-- A byte the receiver takes for a pixel byte and masking leaves alone. -/
def IsCell (p : Params) (v : Byte) : Prop := v.toNat ≤ p.rx.threshold ∧ v &&& mask p.layout = v

section
variable {p : Params} {r : Rx}

/-- A cell goes under the cursor, which advances. -/
theorem rxByte_of_cell {v : Byte} (hst : r.st = .awaitingColumnByte) (hacc : r.acc = []) (hv : IsCell p v) :
    rxByte p (.running r) v =
      .running { r with grid := putColumn r.grid r.band r.col v, col := advance p.rx r.col } := by
  obtain ⟨hle, hmask⟩ := hv
  rw [rxByte_of_le hle, rxPixel_of_awaiting hst hacc, hmask]

/-- Cells that fit in the band after the cursor overwrite it from there; the cursor overflows at most after the last. -/
theorem rxRun_cells (hst : r.st = .awaitingColumnByte) (hacc : r.acc = [])
    (hlen : (bandCells r.grid r.band).length = p.rx.width) {xs : List Byte} (hxs : ∀ v ∈ xs, IsCell p v)
    (hfits : r.col + xs.length ≤ p.rx.width) :
    ∃ col, rxRun p (.running r) xs =
      .running { r with grid := putColumns r.grid r.band r.col xs, col := col } := by
  induction xs generalizing r with
  | nil => exact ⟨r.col, by rw [putColumns_nil, rxRun_nil]⟩
  | cons v xs ih =>
    rw [List.length_cons] at hfits
    have hcol : r.col < (bandCells r.grid r.band).length := by omega
    rw [rxRun_cons, rxByte_of_cell hst hacc (hxs v List.mem_cons_self), ← putColumns_putColumn hcol]
    obtain rfl | hne := eq_or_ne xs []
    · exact ⟨advance p.rx r.col, by rw [putColumns_nil, rxRun_nil]⟩
    · have hpos := List.length_pos_of_ne_nil hne
      rw [advance_of_lt (by omega)]
      exact ih hst hacc (by rw [bandCells_putColumn_length, hlen]) (fun x hx => hxs x (List.mem_cons_of_mem v hx))
        (by simp only; omega)

/-- A band's part of a stream, its control sequence and its cells, overwrites the band from its first column on. -/
theorem rxRun_band {band : Band} (hw : LayoutWF p.layout) (hT : p.rx.threshold = 127) (hband : HasBand p.layout band)
    (hacc : r.acc = []) (hlen : (bandCells r.grid band).length = p.rx.width) {xs : List Byte}
    (hxs : ∀ v ∈ xs, IsCell p v) (hfits : xs.length ≤ p.rx.width) :
    ∃ r', rxRun p (.running r) (bandSequence p.layout band ++ xs) = .running r' ∧
      r'.grid = putColumns r.grid band 0 xs ∧ r'.acc = [] ∧ r'.st = .awaitingColumnByte := by
  have hsequence : rxRun p (.running r) (bandSequence p.layout band) = .running (r.atBand band) :=
    rxRun_rest_of_sequence hw hT hband (bandSequence_ne_nil hw band) (by rw [hacc, List.nil_append])
  obtain ⟨col, hcells⟩ := rxRun_cells (r := r.atBand band) rfl rfl hlen hxs (by simpa [Rx.atBand] using hfits)
  rw [rxRun_append_bytes, hsequence, hcells]
  exact ⟨_, rfl, rfl, rfl, rfl⟩

end

/-! ### The stream of a frame -/

/-- The cells of a Frame are cells for a receiver with the default threshold. -/
theorem IsFrame.isCell {p : Params} {f : List Byte} (hf : IsFrame p.layout f) (hw : LayoutWF p.layout)
    (hT : p.rx.threshold = 127) {v : Byte} (hv : v ∈ f) : IsCell p v := by
  obtain ⟨hmsb, -⟩ := hf.pixelByte hw hv
  obtain ⟨-, hcell⟩ := isFrame_iff.1 hf
  refine ⟨Nat.not_lt.1 fun habove => ?_, and_mask_of_within (hcell v hv)⟩
  rw [above_threshold_iff hT, hmsb] at habove
  cases habove

/-- The expected grid is band 0 overwritten with the cells below the break and band 1 with the others (R169). -/
theorem expectedGrid_eq_putColumns {layout : Layout} {f : List Byte} (hf : f.length = layout.L)
    (hB : layout.B ≤ layout.L) (old : Grid) :
    expectedGrid layout f old =
      putColumns (putColumns old .band0 0 (f.take layout.B)) .band1 0 (f.drop layout.B) := by
  have htop : (f.take layout.B).length = layout.B := List.length_take_of_le (hf ▸ hB)
  simp [expectedGrid, putColumns, overwrite, htop, hf]

/-- A receiver shows the frame of a stream that it consumes (R170). -/
theorem rxRun_txStream {p : Params} {r : Rx} {f : List Byte} (hw : LayoutWF p.layout) (hf : IsFrame p.layout f)
    (hT : p.rx.threshold = 127) (hwidth : max p.layout.B (p.layout.L - p.layout.B) ≤ p.rx.width)
    (h0 : r.grid.band0.length = p.rx.width) (h1 : r.grid.band1.length = p.rx.width) (hacc : r.acc = []) :
    ∃ r', rxRun p (.running r) (txStream p.layout f) = .running r' ∧
      r'.grid = expectedGrid p.layout f r.grid ∧ r'.acc = [] ∧ r'.st = .awaitingColumnByte := by
  obtain ⟨hlen, -⟩ := isFrame_iff.1 hf
  have hB := (layoutWf_bounds hw).1
  have htop : (f.take p.layout.B).length ≤ p.rx.width := by rw [List.length_take]; omega
  have hbottom : (f.drop p.layout.B).length ≤ p.rx.width := by rw [List.length_drop]; omega
  rw [txStream_eq hw hlen, expectedGrid_eq_putColumns hlen hB]
  obtain ⟨r₁, hrun₁, hgrid₁, hacc₁, hst₁⟩ := rxRun_band hw hT (band := .band0) nofun hacc h0
    (fun v hv => hf.isCell hw hT (List.mem_of_mem_take hv)) htop
  rw [rxRun_append_bytes, show p.layout.cs1 = bandSequence p.layout .band0 from rfl, hrun₁, ← hgrid₁]
  split
  case isTrue hlt =>
    exact rxRun_band hw hT (band := .band1) (fun _ => hlt) hacc₁ (by rw [hgrid₁]; exact h1)
      (fun v hv => hf.isCell hw hT (List.mem_of_mem_drop hv)) hbottom
  case isFalse hge =>
    rw [List.drop_of_length_le (by omega), putColumns_nil]
    exact ⟨r₁, rfl, rfl, hacc₁, hst₁⟩

/-- Settles O33: with bands exactly as wide as their parts of the frame no cell of the old grid is left. -/
theorem lastFrameDeterminesGrid : Obligations.LastFrameDeterminesGrid := by
  intro p r₁ r₂ r₁' r₂' cols hw hT hhalf hwidth h₁0 h₁1 h₂0 h₂1 hacc₁ hacc₂ hrun₁ hrun₂
  have hshown : ∀ r r' : Rx, r.grid.band0.length = p.rx.width → r.grid.band1.length = p.rx.width → r.acc = [] →
      rxRun p (.running r) (txStream p.layout (pack p.layout cols)) = .running r' →
      r'.grid = { band0 := (pack p.layout cols).take p.layout.B, band1 := (pack p.layout cols).drop p.layout.B } := by
    intro r r' h0 h1 hacc hrun
    obtain ⟨shown, hshown, hgrid, -, -⟩ := rxRun_txStream hw (pack_isFrame p.layout cols) hT (by omega) h0 h1 hacc
    cases hshown.symm.trans hrun
    have h0 : r.grid.band0.drop p.layout.B = [] := List.drop_of_length_le (by omega)
    have h1 : r.grid.band1.drop (p.layout.L - p.layout.B) = [] := List.drop_of_length_le (by omega)
    rw [hgrid, expectedGrid, h0, h1, List.append_nil, List.append_nil]
  have hgrid₁ := hshown r₁ r₁' h₁0 h₁1 hacc₁ hrun₁
  exact ⟨hgrid₁.trans (hshown r₂ r₂' h₂0 h₂1 hacc₂ hrun₂).symm, hgrid₁⟩

end Sys2Proof.Machine
end

section
/-! PROOFS. The expected grid cell by cell and pixel row by pixel row (spec/45_receiver_model.md R169, spec/41_pack.md
R117). -/

namespace Sys2Proof.Machine

open Sys2Proof

/-! ### Pixel rows -/

/-- There are two bands of pixel rows where there is a row break below the end of the frame. -/
theorem gridRows_eq {layout : Layout} (hw : LayoutWF layout) :
    gridRows layout = if layout.B < layout.L then 2 * layout.K else layout.K := by
  have hB := (layoutWf_bounds hw).1
  rw [gridRows]
  by_cases heq : layout.B = layout.L
  · rw [if_pos heq, if_neg (by omega)]
  · rw [if_neg heq, if_pos (by omega)]

theorem gridPixel_outside {layout : Layout} {y : Nat} (h : gridRows layout ≤ y) (g : Grid) (col : Nat) :
    gridPixel layout g y col = none := by
  rw [gridPixel, rowPlace, if_neg (Nat.not_lt.2 h), Option.bind_none]

section
variable {layout : Layout} (hw : LayoutWF layout) {y : Nat} (hy : y < layout.K) (g : Grid) (col : Nat)
include hw hy

/-- The first K pixel rows are those of band 0. -/
theorem gridPixel_top : gridPixel layout g y col = (g.band0[col]?).map fun v => v.getLsbD y := by
  have hrow : y < gridRows layout := by
    rw [gridRows_eq hw]
    split <;> omega
  rw [gridPixel, rowPlace, if_pos hrow, Nat.div_eq_of_lt hy, if_pos rfl, Nat.mod_eq_of_lt hy, Option.bind_some, pixel]

/-- The next K pixel rows are those of band 1. -/
theorem gridPixel_bottom (hB : layout.B < layout.L) :
    gridPixel layout g (layout.K + y) col = (g.band1[col]?).map fun v => v.getLsbD y := by
  have hrow : layout.K + y < gridRows layout := by
    rw [gridRows_eq hw, if_pos hB]
    omega
  have hband : (layout.K + y) / layout.K ≠ 0 := (Nat.div_pos (by omega) (by omega)).ne'
  rw [gridPixel, rowPlace, if_pos hrow, if_neg hband, Nat.add_mod_left, Nat.mod_eq_of_lt hy, Option.bind_some, pixel]

/-- Masking keeps the bits below K (R26). -/
theorem getLsbD_and_mask (c : Byte) : (c &&& mask layout).getLsbD y = c.getLsbD y := by
  rw [BitVec.getLsbD_and, mask_getLsbD hw, decide_eq_true hy, Bool.and_true]

end

/-! ### Cells -/

section
variable {layout : Layout} {f : List Byte} (hf : f.length = layout.L) (hB : layout.B ≤ layout.L) (old : Grid)
include hf

include hB in
/-- Below the row break a wire position is a column of band 0. -/
theorem expectedGrid_band0_shown {j : Nat} (hj : j < layout.B) : (expectedGrid layout f old).band0[j]? = f[j]? := by
  rw [expectedGrid, List.getElem?_append_left (by rw [List.length_take]; omega), List.getElem?_take_of_lt hj]

/-- From the row break on a wire position is a column of band 1. -/
theorem expectedGrid_band1_shown {j : Nat} (hj : layout.B ≤ j) (hjL : j < layout.L) :
    (expectedGrid layout f old).band1[j - layout.B]? = f[j]? := by
  rw [expectedGrid, List.getElem?_append_left (by rw [List.length_drop]; omega), List.getElem?_drop,
    Nat.add_sub_cancel' hj]

include hB in
theorem expectedGrid_band0_kept {c : Nat} (hc : layout.B ≤ c) :
    (expectedGrid layout f old).band0[c]? = old.band0[c]? := by
  have htop : (f.take layout.B).length = layout.B := List.length_take_of_le (hf ▸ hB)
  rw [expectedGrid, List.getElem?_append_right (htop.trans_le hc), htop, List.getElem?_drop, Nat.add_sub_cancel' hc]

theorem expectedGrid_band1_kept {c : Nat} (hc : layout.L - layout.B ≤ c) :
    (expectedGrid layout f old).band1[c]? = old.band1[c]? := by
  have hbottom : (f.drop layout.B).length = layout.L - layout.B := by rw [List.length_drop, hf]
  rw [expectedGrid, List.getElem?_append_right (hbottom.trans_le hc), hbottom, List.getElem?_drop,
    Nat.add_sub_cancel' hc]

end

/-- Settles O32: a logical column is the frame's cell at its wire position, which the break puts into one band. -/
theorem logicalColumnShown : Obligations.LogicalColumnShown := by
  intro layout hw cols old
  obtain ⟨hrange, -⟩ := remapIsBijection layout hw
  have hlen := pack_length layout cols
  have hB := (layoutWf_bounds hw).1
  have hcell : ∀ i c, i < layout.L → cols[i]? = some c →
      (pack layout cols)[remapOf layout i]? = some (c &&& mask layout) := fun i c hi hc => by
    rw [pack_getElem?_remapOf hw cols hi, hc, Option.getD_some]
  have htop : ∀ i c, i < layout.L → cols[i]? = some c → remapOf layout i < layout.B →
      (expectedGrid layout (pack layout cols) old).band0[remapOf layout i]? = some (c &&& mask layout) :=
    fun i c hi hc hlt => (expectedGrid_band0_shown hlen hB old hlt).trans (hcell i c hi hc)
  have hbottom : ∀ i c, i < layout.L → cols[i]? = some c → layout.B ≤ remapOf layout i →
      (expectedGrid layout (pack layout cols) old).band1[remapOf layout i - layout.B]? = some (c &&& mask layout) :=
    fun i c hi hc hge => (expectedGrid_band1_shown hlen old hge (hrange i hi)).trans (hcell i c hi hc)
  refine ⟨fun i c y hi hc hy hlt => ?_, fun i c y hi hc hy hge => ?_, fun g y col hy => gridPixel_outside hy g col,
    gridRows_eq hw, htop, hbottom, fun c => expectedGrid_band0_kept hlen hB old,
    fun c => expectedGrid_band1_kept hlen old⟩
  · rw [gridPixel_top hw hy, htop i c hi hc hlt, Option.map_some, getLsbD_and_mask hw hy]
  · have hlt : layout.B < layout.L := hge.trans_lt (hrange i hi)
    rw [gridPixel_bottom hw hy _ _ hlt, hbottom i c hi hc hge, Option.map_some, getLsbD_and_mask hw hy]

end Sys2Proof.Machine
end

section
/-! PROOFS. The round trip over the machine (spec/45_receiver_model.md R170, R172): RX as a Transport, a device that
catches up with H, and PACK and TX on the command port of a ready block. -/

namespace Sys2Proof.Machine

open Sys2Proof

/-- RX as a Transport consumes its writes in order and answers each `ok` (R172). -/
theorem rxWrites_eq (p : Params) (rx : Receiver) (writes : List (List Byte)) :
    rxWrites p rx writes = (rxRun p rx writes.flatten, List.replicate writes.length .ok) := by
  induction writes generalizing rx with
  | nil => rfl
  | cons seg later ih =>
    rw [rxWrites, rxWrite, ih, List.flatten_cons, rxRun_append_bytes, List.length_cons, List.replicate_succ]

/-! ### The device catches up -/

/-- The device consumes the bytes of H that it has not consumed yet, one step each (R20 (4)). -/
theorem run_device {s : State} (hw : LayoutWF s.params.layout) (hx : ReceiverWF s.params) (hp : s.powerUpPin = false)
    (hr : s.resetPin = none) {bytes : List Byte} (h : s.sink.drop s.rxSeen = bytes) :
    Sys2Proof.core.run bytes.length s =
      .next { s with rxSeen := s.rxSeen + bytes.length, rx := rxRun s.params s.rx bytes } := by
  induction bytes generalizing s with
  | nil => rfl
  | cons b bytes ih =>
    have hb : nextWireByte s = some b := by
      rw [nextWireByte, ← Nat.add_zero s.rxSeen, ← List.getElem?_drop, h, List.getElem?_cons_zero]
    have hrest : s.sink.drop (s.rxSeen + 1) = bytes := by rw [← List.drop_drop, h, List.drop_one, List.tail_cons]
    have hstep : step s = .next { wireByteTaken s with rx := rxByte s.params s.rx b } := by
      rw [step_of_wireByte hw hp hr hb, exec_decodeWire]
      exact withReceiver_of_wf hw hx _
    have hlater := ih (s := { wireByteTaken s with rx := rxByte s.params s.rx b }) hw hx hp hr hrest
    rw [List.length_cons, core_run_succ_of_next hstep, hlater]
    simp [wireByteTaken, rxRun_cons, Nat.add_assoc, Nat.add_comm 1]

/-! ### PACK and TX -/

/-- The state after a PACK whose packet is followed by `rest` on the command port (R111). -/
def afterPack (cols rest : List Byte) (s : State) : State :=
  respond okCode (storeFrame (pack s.params.layout cols) { s with cmdIn := rest })

section
variable {s : State}

/-- A ready block runs the packet of a PACK. -/
theorem step_pack (he : EncoderReady s) (hdec : s.dec = .boundary) {cols rest : List Byte}
    (hwf : (Instr.pack cols).WellFormed) (hport : s.cmdIn = encode (.pack cols) ++ rest) :
    step s = .next (afterPack cols rest s) := by
  rw [encodedCommandRuns s (.pack cols) rest he hdec hwf rfl hport]
  exact exec_pack_of_wf (s := { s with cmdIn := rest, dec := .boundary, busy := true }) he.layout_wf cols

/-- A ready block is ready again after a PACK. -/
theorem EncoderReady.afterPack (he : EncoderReady s) (cols rest : List Byte) : EncoderReady (afterPack cols rest s) :=
  ⟨he.layout_wf, he.no_power_up, he.no_reset, he.device_done, he.not_halted, rfl⟩

/-- A ready block with a valid frame runs the packet of a TX to its end, where every write is answered `ok`. -/
theorem step_tx (he : EncoderReady s) (hdec : s.dec = .boundary) {rest : List Byte} (hv : s.fbv = true)
    (hport : s.cmdIn = encode .tx ++ rest) {later : List Answer}
    (hanswers : s.answers = List.replicate (stateSegs s).length .ok ++ later) :
    step s = .next (afterTx later { s with cmdIn := rest }) := by
  rw [encodedCommandRuns s .tx rest he hdec rfl rfl hport]
  exact transmitCompletes _ later he.layout_wf hv hanswers

/-- PACK and TX take a step each, and then the device a step for each byte of the stream. -/
theorem run_pack_tx (he : EncoderReady s) (hdec : s.dec = .boundary) (hseen : s.rxSeen = s.sink.length)
    (hx : ReceiverWF s.params) {cols : List Byte} (hwf : (Instr.pack cols).WellFormed)
    (hport : s.cmdIn = encode (.pack cols) ++ encode .tx)
    (hanswers : s.answers = List.replicate (segs s.params.layout (pack s.params.layout cols)).length .ok)
    {stream : List Byte} (hstream : txStream s.params.layout (pack s.params.layout cols) = stream) :
    Sys2Proof.core.run (stream.length + 2) s = .next { afterTx [] (afterPack cols [] s) with
      rxSeen := s.rxSeen + stream.length, rx := rxRun s.params s.rx stream } := by
  have hpack := step_pack he hdec hwf hport
  have htx : step (afterPack cols (encode .tx) s) = .next (afterTx [] (afterPack cols [] s)) :=
    step_tx (he.afterPack cols _) rfl rfl (List.append_nil _).symm (hanswers.trans (List.append_nil _).symm)
  have hunseen : (s.sink ++ txStream s.params.layout (pack s.params.layout cols)).drop s.rxSeen = stream := by
    rw [hseen, List.drop_left, hstream]
  rw [core_run_succ_of_next hpack, core_run_succ_of_next htx]
  exact run_device (s := afterTx [] (afterPack cols [] s)) he.layout_wf hx he.no_power_up he.no_reset hunseen

end

/-- Settles O31: on the receiver, on a list of writes, and on the machine, whose device consumes that stream. -/
theorem roundTripShowsFrame : Obligations.RoundTripShowsFrame := by
  refine ⟨fun p r cols hw => rxRun_txStream hw (pack_isFrame _ cols), rxWrites_eq, ?_⟩
  intro s r cols he hdec hseen hx hT hwidth hrx h0 h1 hacc hwf hport hanswers
  obtain ⟨r', hshown, hgrid, hacc', hst'⟩ :=
    rxRun_txStream he.layout_wf (pack_isFrame s.params.layout cols) hT hwidth h0 h1 hacc
  rw [rxWrites_eq] at hanswers
  rw [← hrx] at hshown
  refine ⟨_, _, r', run_pack_tx he hdec hseen hx hwf hport hanswers rfl, hshown, hgrid, hacc', hst', rfl, rfl, rfl,
    rfl, rfl, ?_, rfl, List.append_assoc ..⟩
  rw [hseen]
  exact List.length_append.symm

end Sys2Proof.Machine
end

section
/-! PROOFS. The faults (spec/60_exceptions.md R182 to R184): fault entry, NEG and TX without a frame, and the reserved
opcode byte with the halted block it leaves. -/

namespace Sys2Proof.Machine

open Sys2Proof

/-- Settles O34: the table of R180, row by row. -/
theorem faultEntry : Obligations.FaultEntry := by
  intro c bit code halts s hrow
  simp only [List.mem_cons, List.not_mem_nil, or_false, Prod.mk.injEq] at hrow
  obtain ⟨rfl, rfl, rfl, rfl⟩ | ⟨rfl, rfl, rfl, rfl⟩ | ⟨rfl, rfl, rfl, rfl⟩ | ⟨rfl, rfl, rfl, rfl⟩ |
    ⟨rfl, rfl, rfl, rfl⟩ := hrow
  · exact raise_eq .teDisconnected s
  · exact raise_eq .teTimeout s
  · exact raise_eq .teWriteRejected s
  · exact raise_eq .illegalCmd s
  · exact raise_eq .fbInvalid s

/-! ### NEG and TX without a frame -/

section
variable {s : State}

/-- NEG without a frame leaves the frame register alone and raises FB_INVALID (R126). -/
theorem exec_neg_of_invalid (hw : LayoutWF s.params.layout) (hv : s.fbv = false) :
    exec .neg s = .next (raise .fbInvalid s) :=
  (withLayout_of_wf hw _).trans (if_neg (Bool.eq_false_iff.1 hv))

/-- TX without a frame hands no segment over and raises FB_INVALID (R132). -/
theorem exec_tx_of_invalid (hw : LayoutWF s.params.layout) (hv : s.fbv = false) :
    exec .tx s = .next (raise .fbInvalid s) :=
  (withLayout_of_wf hw _).trans (if_neg (Bool.eq_false_iff.1 hv))

end

/-- Settles O19: both commands raise FB_INVALID, whose row in the table of R180 leaves HALT as it was. -/
theorem fbInvalidRaised : Obligations.FbInvalidRaised := by
  intro i s hi hw hv
  have hexec : exec i s = .next (raise .fbInvalid s) := by
    obtain rfl | rfl := hi
    · exact exec_neg_of_invalid hw hv
    · exact exec_tx_of_invalid hw hv
  rw [hexec, faultEntry .fbInvalid 0b10000#5 0x05#8 false s (by decide), Bool.or_false]

/-! ### A reserved byte at an opcode position -/

/-- A ready block at a packet boundary takes a reserved byte alone and raises ILLEGAL_CMD (R78, R183). -/
theorem step_reserved {s : State} (he : EncoderReady s) (hdec : s.dec = .boundary) {b : Byte} {rest : List Byte}
    (hport : s.cmdIn = b :: rest) (hb : 4 ≤ b.toNat) :
    step s = .next (raise .illegalCmd (bytesTaken .boundary rest s)) := by
  have hfetch : fetchCommand s = .illegal b rest := by
    rw [fetchCommand, hdec, hport]
    exact decodeCommand_reserved hb rest
  have hbytes : s.cmdIn ≠ [] := hport ▸ List.cons_ne_nil b rest
  rw [step_of_ready he hbytes, stepCommand_of_illegal hfetch]

/-- With no pin asserted and the device up to date, a halted block is stuck (R35). -/
theorem step_of_halted {s : State} (hw : LayoutWF s.params.layout) (hp : s.powerUpPin = false)
    (hr : s.resetPin = none) (hb : nextWireByte s = none) (hh : s.halt = true) : step s = .fault .halted :=
  (step_of_upToDate hw hp hr hb).trans (if_pos hh)

/-- Settles O36: ILLEGAL_CMD is the fault whose row in the table of R180 sets HALT, and it touches neither the pins nor
H, so the halted block is stuck. -/
theorem illegalOpcodeHalts : Obligations.IllegalOpcodeHalts := by
  rintro s t b rest he hdec hport hb rfl
  refine ⟨?_, step_of_halted he.layout_wf he.no_power_up he.no_reset he.device_done rfl⟩
  rw [step_reserved he hdec hport hb, faultEntry .illegalCmd 0b01000#5 0x04#8 true _ (by decide), Bool.or_true]
  simp [bytesTaken, hdec]

end Sys2Proof.Machine
end

section
/-! PROOFS. The reset input taken (spec/70_reset_and_hazards.md R200, R201): the registers at their reset values, and the
part of a write in progress that still reaches the device. -/

namespace Sys2Proof.Machine

open Sys2Proof

/-! ### H when reset is taken -/

section
variable {s : State}

/-- With no TX in progress reset writes nothing to the Transport (R201). -/
theorem takeReset_sink_of_idle (ha : s.txs.active = false) (delivered : Nat) :
    (takeReset delivered s).sink = s.sink := by
  simp [takeReset, ha]

/-- Reset taken during a TX cuts the segment in progress after the bytes already handed over (R201). -/
theorem takeReset_sink_of_active (ha : s.txs.active = true) {seg : List Byte}
    (hseg : (stateSegs s)[s.txs.seg]? = some seg) (delivered : Nat) :
    (takeReset delivered s).sink = s.sink ++ seg.take delivered := by
  simp [takeReset, ha, List.getD_eq_getElem?_getD, hseg]

end

/-- Settles O40: the step takes the reset, which sets the registers outright (by `rfl`) and touches H only for a TX in
progress. -/
theorem resetTaken : Obligations.ResetTaken := by
  intro s delivered hw hp hr
  refine ⟨takeReset delivered s, step_of_reset hw hp hr, rfl, rfl, rfl, rfl, rfl, rfl, rfl, rfl, rfl, rfl, rfl, rfl, rfl,
    ?idle, ?sending⟩
  case idle => exact fun ha => takeReset_sink_of_idle ha delivered
  case sending => exact fun seg ha hseg => takeReset_sink_of_active ha hseg delivered

end Sys2Proof.Machine
end
